-- ==== Sys2Proof/Word.lean ====
section
/-! DEFINITION. The word types of CORE (00_scope.md R5, R6): 8-bit bytes, 16-bit registers, 24-bit bus addresses. -/

namespace Sys2Proof

/-- `u8`: one byte of memory, and the registers PB, DB and P. -/
abbrev Byte := BitVec 8

/-- `u16`: the registers A, X, Y, SP, PC and D. -/
abbrev Word := BitVec 16

/-- `u24`: an address on the bus. -/
abbrev Addr := BitVec 24

end Sys2Proof
end

