-- ==== Sys2Proof/Config.lean ====
section
/-! DEFINITION. The parameters of the machine (00_scope.md R5): plain data, fixed for one machine, never written by a step.
The bus instances and the default configuration are in Machine/Bus.lean, the default cycle table is in
Machine/CycleTable.lean. -/

namespace Sys2Proof

/-! ### The bus (20_memory.md R60 to R66) -/

/-- What a write leaves in the byte it addresses. R61 asks of a bus only that a write changes at most that byte, so a
platform's registers may keep bits or make a byte of their own of what is written (R66, U12).
DESIGN CHOICE: the three rules are the model's (notes/assumptions/4.md, 39.md). -/
inductive WriteRule where
  /-- The byte written (WRAM, R62). -/
  | plain
  /-- The bits of a mask take what is written and the others are kept; with the mask 0x00 writes are discarded. -/
  | masked (mask : Byte)
  /-- What the platform's device of that number makes of it: `Config.deviceWrite`. -/
  | device (id : Nat)
  deriving DecidableEq, Repr

/-- What stands behind a region of the address space: stored bytes (WRAM, R62, and a platform's save RAM and registers), or
the cartridge (R63). -/
inductive RegionKind where
  | ram (rule : WriteRule)
  | rom
  deriving DecidableEq, Repr

/-- One row of a memory map: the addresses `base .. base + size - 1` (20_memory.md R62, ranges half-open).
For `ram`, `home` is the address under which the region's first byte is stored, so that a mirror names the
addresses it mirrors; for `rom` it is the ROM offset of the region's first byte. -/
structure Region where
  base : Nat
  size : Nat
  kind : RegionKind
  home : Nat
  deriving DecidableEq, Repr

/-- The byte a write leaves in a byte of a platform's device, from the number of the device, the memory as it stands, the
address and the byte written. It has no body, because R61 leaves it open: nothing can be proved of its values, so a claim
about every bus holds for every such device (notes/assumptions/39.md). -/
opaque Config.deviceWrite (id : Nat) (mem : List Host.Cell) (addr : Nat) (v : Byte) : Byte

/-! ### The cycle table (30_encoding.md R110, R111) -/

/-- A cycle expression of R111: the constant, and how often each term of R110 is added. -/
structure CycleExpr where
  base : Nat
  m16 : Nat := 0
  x16 : Nat := 0
  dl : Nat := 0
  px : Nat := 0
  t : Nat := 0
  tx : Nat := 0
  e0 : Nat := 0
  deriving DecidableEq, Repr

/-- `BaseCycles` as data: the expression of every opcode byte, in the order of the bytes, and that of an IRQ or NMI entry,
the row of R111 that belongs to no opcode (R405, D20). -/
structure CycleTable where
  opcodes : Vector CycleExpr 256
  entry : CycleExpr
  deriving DecidableEq, Repr

/-- The expression of an opcode byte. -/
def CycleTable.row (t : CycleTable) (opcode : Byte) : CycleExpr := t.opcodes[opcode.toNat]'opcode.isLt

/-- What the document asks of every table (R37, R110): each instruction and each entry adds at least one cycle. -/
abbrev CycleTable.wf (t : CycleTable) : Prop := (∀ c ∈ t.opcodes.toList, 1 ≤ c.base) ∧ 1 ≤ t.entry.base

/-! ### The parameters -/

/-- The parameters of R5 that a model carries as data. An address that no region of `bus` claims is open bus (R64).
DESIGN CHOICE: they stand in State, so that a statement about every state holds for every value of them
(notes/assumptions/4.md). -/
structure Config where
  /-- `Bus`: the memory map, first matching row first (R62, R66). -/
  bus : List Region
  /-- `ROM_SIZE` (R63). -/
  romSize : Nat
  /-- `ROM`: the bytes by offset; an unlisted offset holds 0x00. -/
  rom : List Host.Cell
  /-- `WRAM_INIT`: the power-on contents of the stored bytes behind the bus, by home address; an unlisted one holds 0x00
  (R65, U8; under FlatTestBus the initial values a test states, R66). -/
  wramInit : List Host.Cell
  /-- `Undefined`: opcode bytes with no handler (R106). -/
  undefinedOpcodes : List Byte
  /-- `BaseCycles`: the cycle table (R111, D5). -/
  baseCycles : CycleTable
  /-- `PULL_BD_SETS_NZ`: whether PLB and PLD write N and Z (R302, R303). -/
  pullBDSetsNZ : Bool
  deriving DecidableEq, Repr

end Sys2Proof
end

