-- ==== Sys2Proof/Syntax.lean ====
section
/-! DEFINITION. The instructions: one constructor per row of opcode_table.json, that is one per opcode byte (30_encoding.md
R105). A constructor's name is the mnemonic and, where a mnemonic has several addressing modes, the mode. Its arguments
are the operand its format carries (R101, R102); a width-dependent immediate is a 16-bit word of which an instruction
uses the low wA or wX bits (notes/assumptions/28.md). -/

namespace Sys2Proof

inductive Instr where
  -- loads and stores (41_load_store.md)
  | ldaDpXInd (o : Byte)
  | ldaSr (o : Byte)
  | ldaDp (o : Byte)
  | ldaDpIndLong (o : Byte)
  | ldaImm (v : Word)
  | ldaAbs (a : Word)
  | ldaLong (a : Addr)
  | ldaDpIndY (o : Byte)
  | ldaDpInd (o : Byte)
  | ldaSrIndY (o : Byte)
  | ldaDpX (o : Byte)
  | ldaDpIndLongY (o : Byte)
  | ldaAbsY (a : Word)
  | ldaAbsX (a : Word)
  | ldaLongX (a : Addr)
  | ldxImm (v : Word)
  | ldxDp (o : Byte)
  | ldxAbs (a : Word)
  | ldxDpY (o : Byte)
  | ldxAbsY (a : Word)
  | ldyImm (v : Word)
  | ldyDp (o : Byte)
  | ldyAbs (a : Word)
  | ldyDpX (o : Byte)
  | ldyAbsX (a : Word)
  | staDpXInd (o : Byte)
  | staSr (o : Byte)
  | staDp (o : Byte)
  | staDpIndLong (o : Byte)
  | staAbs (a : Word)
  | staLong (a : Addr)
  | staDpIndY (o : Byte)
  | staDpInd (o : Byte)
  | staSrIndY (o : Byte)
  | staDpX (o : Byte)
  | staDpIndLongY (o : Byte)
  | staAbsY (a : Word)
  | staAbsX (a : Word)
  | staLongX (a : Addr)
  | stxDp (o : Byte)
  | stxAbs (a : Word)
  | stxDpY (o : Byte)
  | styDp (o : Byte)
  | styAbs (a : Word)
  | styDpX (o : Byte)
  | stzDp (o : Byte)
  | stzDpX (o : Byte)
  | stzAbs (a : Word)
  | stzAbsX (a : Word)
  -- arithmetic, logic, compare, bit test (42_alu.md)
  | adcDpXInd (o : Byte)
  | adcSr (o : Byte)
  | adcDp (o : Byte)
  | adcDpIndLong (o : Byte)
  | adcImm (v : Word)
  | adcAbs (a : Word)
  | adcLong (a : Addr)
  | adcDpIndY (o : Byte)
  | adcDpInd (o : Byte)
  | adcSrIndY (o : Byte)
  | adcDpX (o : Byte)
  | adcDpIndLongY (o : Byte)
  | adcAbsY (a : Word)
  | adcAbsX (a : Word)
  | adcLongX (a : Addr)
  | sbcDpXInd (o : Byte)
  | sbcSr (o : Byte)
  | sbcDp (o : Byte)
  | sbcDpIndLong (o : Byte)
  | sbcImm (v : Word)
  | sbcAbs (a : Word)
  | sbcLong (a : Addr)
  | sbcDpIndY (o : Byte)
  | sbcDpInd (o : Byte)
  | sbcSrIndY (o : Byte)
  | sbcDpX (o : Byte)
  | sbcDpIndLongY (o : Byte)
  | sbcAbsY (a : Word)
  | sbcAbsX (a : Word)
  | sbcLongX (a : Addr)
  | andDpXInd (o : Byte)
  | andSr (o : Byte)
  | andDp (o : Byte)
  | andDpIndLong (o : Byte)
  | andImm (v : Word)
  | andAbs (a : Word)
  | andLong (a : Addr)
  | andDpIndY (o : Byte)
  | andDpInd (o : Byte)
  | andSrIndY (o : Byte)
  | andDpX (o : Byte)
  | andDpIndLongY (o : Byte)
  | andAbsY (a : Word)
  | andAbsX (a : Word)
  | andLongX (a : Addr)
  | oraDpXInd (o : Byte)
  | oraSr (o : Byte)
  | oraDp (o : Byte)
  | oraDpIndLong (o : Byte)
  | oraImm (v : Word)
  | oraAbs (a : Word)
  | oraLong (a : Addr)
  | oraDpIndY (o : Byte)
  | oraDpInd (o : Byte)
  | oraSrIndY (o : Byte)
  | oraDpX (o : Byte)
  | oraDpIndLongY (o : Byte)
  | oraAbsY (a : Word)
  | oraAbsX (a : Word)
  | oraLongX (a : Addr)
  | eorDpXInd (o : Byte)
  | eorSr (o : Byte)
  | eorDp (o : Byte)
  | eorDpIndLong (o : Byte)
  | eorImm (v : Word)
  | eorAbs (a : Word)
  | eorLong (a : Addr)
  | eorDpIndY (o : Byte)
  | eorDpInd (o : Byte)
  | eorSrIndY (o : Byte)
  | eorDpX (o : Byte)
  | eorDpIndLongY (o : Byte)
  | eorAbsY (a : Word)
  | eorAbsX (a : Word)
  | eorLongX (a : Addr)
  | cmpDpXInd (o : Byte)
  | cmpSr (o : Byte)
  | cmpDp (o : Byte)
  | cmpDpIndLong (o : Byte)
  | cmpImm (v : Word)
  | cmpAbs (a : Word)
  | cmpLong (a : Addr)
  | cmpDpIndY (o : Byte)
  | cmpDpInd (o : Byte)
  | cmpSrIndY (o : Byte)
  | cmpDpX (o : Byte)
  | cmpDpIndLongY (o : Byte)
  | cmpAbsY (a : Word)
  | cmpAbsX (a : Word)
  | cmpLongX (a : Addr)
  | cpxImm (v : Word)
  | cpxDp (o : Byte)
  | cpxAbs (a : Word)
  | cpyImm (v : Word)
  | cpyDp (o : Byte)
  | cpyAbs (a : Word)
  | bitDp (o : Byte)
  | bitAbs (a : Word)
  | bitDpX (o : Byte)
  | bitAbsX (a : Word)
  | bitImm (v : Word)
  -- shifts, rotates, increments, decrements, bit reset and set (43_rmw.md)
  | aslDp (o : Byte)
  | aslAcc
  | aslAbs (a : Word)
  | aslDpX (o : Byte)
  | aslAbsX (a : Word)
  | lsrDp (o : Byte)
  | lsrAcc
  | lsrAbs (a : Word)
  | lsrDpX (o : Byte)
  | lsrAbsX (a : Word)
  | rolDp (o : Byte)
  | rolAcc
  | rolAbs (a : Word)
  | rolDpX (o : Byte)
  | rolAbsX (a : Word)
  | rorDp (o : Byte)
  | rorAcc
  | rorAbs (a : Word)
  | rorDpX (o : Byte)
  | rorAbsX (a : Word)
  | incAcc
  | incDp (o : Byte)
  | incAbs (a : Word)
  | incDpX (o : Byte)
  | incAbsX (a : Word)
  | decAcc
  | decDp (o : Byte)
  | decAbs (a : Word)
  | decDpX (o : Byte)
  | decAbsX (a : Word)
  | inx
  | iny
  | dex
  | dey
  | trbDp (o : Byte)
  | trbAbs (a : Word)
  | tsbDp (o : Byte)
  | tsbAbs (a : Word)
  -- control transfer (44_control.md)
  | bcc (d : Byte)
  | bcs (d : Byte)
  | beq (d : Byte)
  | bmi (d : Byte)
  | bne (d : Byte)
  | bpl (d : Byte)
  | bvc (d : Byte)
  | bvs (d : Byte)
  | bra (d : Byte)
  | brl (d : Word)
  | jmpAbs (a : Word)
  | jmpAbsInd (a : Word)
  | jmpAbsXInd (a : Word)
  | jmlLong (a : Addr)
  | jmlAbsIndLong (a : Word)
  | jsrAbs (a : Word)
  | jsrAbsXInd (a : Word)
  | jsl (a : Addr)
  | rts
  | rtl
  | rti
  | brk (sig : Byte)
  | cop (sig : Byte)
  -- block moves and miscellaneous (47_block_misc.md)
  | mvn (dst : Byte) (src : Byte)
  | mvp (dst : Byte) (src : Byte)
  | nop
  | wdm (o : Byte)
  | wai
  | stp
  -- stack (45_stack.md)
  | pha
  | phx
  | phy
  | php
  | phb
  | phd
  | phk
  | pla
  | plx
  | ply
  | plp
  | plb
  | pld
  | pea (v : Word)
  | pei (o : Byte)
  | per (d : Word)
  -- flags, transfers, exchanges (46_flags_transfers.md)
  | rep (mask : Byte)
  | sep (mask : Byte)
  | clc
  | cld
  | cli
  | clv
  | sec
  | sed
  | sei
  | tax
  | tay
  | txa
  | tya
  | txy
  | tyx
  | tsx
  | txs
  | tcd
  | tdc
  | tcs
  | tsc
  | xba
  | xce
  deriving DecidableEq, Repr

/-- An instruction's operand bytes by format (R101): none (F0), one byte (F1), a word (F2), a 24-bit word (F3), an
immediate of width wA (FM) or wX (FX), the destination and source bank (FMV). -/
inductive Operand where
  | none
  | byte (b : Byte)
  | word (w : Word)
  | long (a : Addr)
  | immM (v : Word)
  | immX (v : Word)
  | banks (dst src : Byte)
  deriving DecidableEq, Repr

/-- The operand an instruction carries, in the format of its opcode row. -/
def Instr.operand : Instr → Operand
  | .ldaDpXInd o => .byte o
  | .ldaSr o => .byte o
  | .ldaDp o => .byte o
  | .ldaDpIndLong o => .byte o
  | .ldaImm v => .immM v
  | .ldaAbs a => .word a
  | .ldaLong a => .long a
  | .ldaDpIndY o => .byte o
  | .ldaDpInd o => .byte o
  | .ldaSrIndY o => .byte o
  | .ldaDpX o => .byte o
  | .ldaDpIndLongY o => .byte o
  | .ldaAbsY a => .word a
  | .ldaAbsX a => .word a
  | .ldaLongX a => .long a
  | .ldxImm v => .immX v
  | .ldxDp o => .byte o
  | .ldxAbs a => .word a
  | .ldxDpY o => .byte o
  | .ldxAbsY a => .word a
  | .ldyImm v => .immX v
  | .ldyDp o => .byte o
  | .ldyAbs a => .word a
  | .ldyDpX o => .byte o
  | .ldyAbsX a => .word a
  | .staDpXInd o => .byte o
  | .staSr o => .byte o
  | .staDp o => .byte o
  | .staDpIndLong o => .byte o
  | .staAbs a => .word a
  | .staLong a => .long a
  | .staDpIndY o => .byte o
  | .staDpInd o => .byte o
  | .staSrIndY o => .byte o
  | .staDpX o => .byte o
  | .staDpIndLongY o => .byte o
  | .staAbsY a => .word a
  | .staAbsX a => .word a
  | .staLongX a => .long a
  | .stxDp o => .byte o
  | .stxAbs a => .word a
  | .stxDpY o => .byte o
  | .styDp o => .byte o
  | .styAbs a => .word a
  | .styDpX o => .byte o
  | .stzDp o => .byte o
  | .stzDpX o => .byte o
  | .stzAbs a => .word a
  | .stzAbsX a => .word a
  | .adcDpXInd o => .byte o
  | .adcSr o => .byte o
  | .adcDp o => .byte o
  | .adcDpIndLong o => .byte o
  | .adcImm v => .immM v
  | .adcAbs a => .word a
  | .adcLong a => .long a
  | .adcDpIndY o => .byte o
  | .adcDpInd o => .byte o
  | .adcSrIndY o => .byte o
  | .adcDpX o => .byte o
  | .adcDpIndLongY o => .byte o
  | .adcAbsY a => .word a
  | .adcAbsX a => .word a
  | .adcLongX a => .long a
  | .sbcDpXInd o => .byte o
  | .sbcSr o => .byte o
  | .sbcDp o => .byte o
  | .sbcDpIndLong o => .byte o
  | .sbcImm v => .immM v
  | .sbcAbs a => .word a
  | .sbcLong a => .long a
  | .sbcDpIndY o => .byte o
  | .sbcDpInd o => .byte o
  | .sbcSrIndY o => .byte o
  | .sbcDpX o => .byte o
  | .sbcDpIndLongY o => .byte o
  | .sbcAbsY a => .word a
  | .sbcAbsX a => .word a
  | .sbcLongX a => .long a
  | .andDpXInd o => .byte o
  | .andSr o => .byte o
  | .andDp o => .byte o
  | .andDpIndLong o => .byte o
  | .andImm v => .immM v
  | .andAbs a => .word a
  | .andLong a => .long a
  | .andDpIndY o => .byte o
  | .andDpInd o => .byte o
  | .andSrIndY o => .byte o
  | .andDpX o => .byte o
  | .andDpIndLongY o => .byte o
  | .andAbsY a => .word a
  | .andAbsX a => .word a
  | .andLongX a => .long a
  | .oraDpXInd o => .byte o
  | .oraSr o => .byte o
  | .oraDp o => .byte o
  | .oraDpIndLong o => .byte o
  | .oraImm v => .immM v
  | .oraAbs a => .word a
  | .oraLong a => .long a
  | .oraDpIndY o => .byte o
  | .oraDpInd o => .byte o
  | .oraSrIndY o => .byte o
  | .oraDpX o => .byte o
  | .oraDpIndLongY o => .byte o
  | .oraAbsY a => .word a
  | .oraAbsX a => .word a
  | .oraLongX a => .long a
  | .eorDpXInd o => .byte o
  | .eorSr o => .byte o
  | .eorDp o => .byte o
  | .eorDpIndLong o => .byte o
  | .eorImm v => .immM v
  | .eorAbs a => .word a
  | .eorLong a => .long a
  | .eorDpIndY o => .byte o
  | .eorDpInd o => .byte o
  | .eorSrIndY o => .byte o
  | .eorDpX o => .byte o
  | .eorDpIndLongY o => .byte o
  | .eorAbsY a => .word a
  | .eorAbsX a => .word a
  | .eorLongX a => .long a
  | .cmpDpXInd o => .byte o
  | .cmpSr o => .byte o
  | .cmpDp o => .byte o
  | .cmpDpIndLong o => .byte o
  | .cmpImm v => .immM v
  | .cmpAbs a => .word a
  | .cmpLong a => .long a
  | .cmpDpIndY o => .byte o
  | .cmpDpInd o => .byte o
  | .cmpSrIndY o => .byte o
  | .cmpDpX o => .byte o
  | .cmpDpIndLongY o => .byte o
  | .cmpAbsY a => .word a
  | .cmpAbsX a => .word a
  | .cmpLongX a => .long a
  | .cpxImm v => .immX v
  | .cpxDp o => .byte o
  | .cpxAbs a => .word a
  | .cpyImm v => .immX v
  | .cpyDp o => .byte o
  | .cpyAbs a => .word a
  | .bitDp o => .byte o
  | .bitAbs a => .word a
  | .bitDpX o => .byte o
  | .bitAbsX a => .word a
  | .bitImm v => .immM v
  | .aslDp o => .byte o
  | .aslAcc => .none
  | .aslAbs a => .word a
  | .aslDpX o => .byte o
  | .aslAbsX a => .word a
  | .lsrDp o => .byte o
  | .lsrAcc => .none
  | .lsrAbs a => .word a
  | .lsrDpX o => .byte o
  | .lsrAbsX a => .word a
  | .rolDp o => .byte o
  | .rolAcc => .none
  | .rolAbs a => .word a
  | .rolDpX o => .byte o
  | .rolAbsX a => .word a
  | .rorDp o => .byte o
  | .rorAcc => .none
  | .rorAbs a => .word a
  | .rorDpX o => .byte o
  | .rorAbsX a => .word a
  | .incAcc => .none
  | .incDp o => .byte o
  | .incAbs a => .word a
  | .incDpX o => .byte o
  | .incAbsX a => .word a
  | .decAcc => .none
  | .decDp o => .byte o
  | .decAbs a => .word a
  | .decDpX o => .byte o
  | .decAbsX a => .word a
  | .inx => .none
  | .iny => .none
  | .dex => .none
  | .dey => .none
  | .trbDp o => .byte o
  | .trbAbs a => .word a
  | .tsbDp o => .byte o
  | .tsbAbs a => .word a
  | .bcc d => .byte d
  | .bcs d => .byte d
  | .beq d => .byte d
  | .bmi d => .byte d
  | .bne d => .byte d
  | .bpl d => .byte d
  | .bvc d => .byte d
  | .bvs d => .byte d
  | .bra d => .byte d
  | .brl d => .word d
  | .jmpAbs a => .word a
  | .jmpAbsInd a => .word a
  | .jmpAbsXInd a => .word a
  | .jmlLong a => .long a
  | .jmlAbsIndLong a => .word a
  | .jsrAbs a => .word a
  | .jsrAbsXInd a => .word a
  | .jsl a => .long a
  | .rts => .none
  | .rtl => .none
  | .rti => .none
  | .brk sig => .byte sig
  | .cop sig => .byte sig
  | .mvn dst src => .banks dst src
  | .mvp dst src => .banks dst src
  | .nop => .none
  | .wdm o => .byte o
  | .wai => .none
  | .stp => .none
  | .pha => .none
  | .phx => .none
  | .phy => .none
  | .php => .none
  | .phb => .none
  | .phd => .none
  | .phk => .none
  | .pla => .none
  | .plx => .none
  | .ply => .none
  | .plp => .none
  | .plb => .none
  | .pld => .none
  | .pea v => .word v
  | .pei o => .byte o
  | .per d => .word d
  | .rep mask => .byte mask
  | .sep mask => .byte mask
  | .clc => .none
  | .cld => .none
  | .cli => .none
  | .clv => .none
  | .sec => .none
  | .sed => .none
  | .sei => .none
  | .tax => .none
  | .tay => .none
  | .txa => .none
  | .tya => .none
  | .txy => .none
  | .tyx => .none
  | .tsx => .none
  | .txs => .none
  | .tcd => .none
  | .tdc => .none
  | .tcs => .none
  | .tsc => .none
  | .xba => .none
  | .xce => .none

end Sys2Proof
end

