-- ==== Sys2Proof/WellFormed.lean ====
section
/-! DEFINITION. Which instructions the encoding can express (30_encoding.md R101 to R103).
Every operand but one kind is typed with exactly the bits of its format. A width-dependent immediate is carried as a
16-bit word, and under an 8-bit width (P.M = 1 or P.X = 1) only the values 0 to 255 have an encoding. -/

namespace Sys2Proof

/-- An operand fits its format when P.M is `m8` and P.X is `x8` (R103). -/
def Operand.wf (m8 x8 : Bool) : Operand → Bool
  | .none => true
  | .byte _ => true
  | .word _ => true
  | .long _ => true
  | .immM v => !m8 || decide (v.toNat < 256)
  | .immX v => !x8 || decide (v.toNat < 256)
  | .banks _ _ => true

/-- The instruction has an encoding when P.M is `m8` and P.X is `x8`. -/
def Instr.wf (m8 x8 : Bool) (i : Instr) : Bool :=
  i.operand.wf m8 x8

end Sys2Proof
end

