-- ==== Sys2Proof/Decode.lean ====
section
/-! DEFINITION. The fetch_decode_unit (30_encoding.md): the opcode map, the decoder, total on any bytes, and the encoder.
A decoder needs the opcode byte and, for the formats FM and FX only, P.M and P.X (R100, R103, R109). -/

namespace Sys2Proof

/-! ### Byte order (20_memory.md R67: the low byte comes first) -/

/-- A 16-bit value from its low and high byte. -/
def word (lo hi : Byte) : Word := hi ++ lo

/-- A 24-bit value from its low, middle and high byte. -/
def long (lo mid hi : Byte) : Addr := hi ++ (mid ++ lo : Word)

/-- `R.l` (R6). -/
def lo (v : Word) : Byte := v.extractLsb' 0 8

/-- `R.h` (R6). -/
def hi (v : Word) : Byte := v.extractLsb' 8 8

/-- Bits 15:0 of a 24-bit value. -/
def longWord (a : Addr) : Word := a.extractLsb' 0 16

/-- Bits 23:16 of a 24-bit value. -/
def longBank (a : Addr) : Byte := a.extractLsb' 16 8

/-! ### The opcode map -/

/-- A cell of the opcode map: the format of the operand bytes, and the instruction they make (R101). -/
inductive Row where
  | implied (i : Instr)
  | byte (f : Byte → Instr)
  | word (f : Word → Instr)
  | long (f : Addr → Instr)
  | immM (f : Word → Instr)
  | immX (f : Word → Instr)
  | banks (f : Byte → Byte → Instr)

/-- Row 0x of the map of R105. -/
def row0 : List Row :=
  [ .byte .brk, .byte .oraDpXInd, .byte .cop, .byte .oraSr,
    .byte .tsbDp, .byte .oraDp, .byte .aslDp, .byte .oraDpIndLong,
    .implied .php, .immM .oraImm, .implied .aslAcc, .implied .phd,
    .word .tsbAbs, .word .oraAbs, .word .aslAbs, .long .oraLong ]

/-- Row 1x of the map of R105. -/
def row1 : List Row :=
  [ .byte .bpl, .byte .oraDpIndY, .byte .oraDpInd, .byte .oraSrIndY,
    .byte .trbDp, .byte .oraDpX, .byte .aslDpX, .byte .oraDpIndLongY,
    .implied .clc, .word .oraAbsY, .implied .incAcc, .implied .tcs,
    .word .trbAbs, .word .oraAbsX, .word .aslAbsX, .long .oraLongX ]

/-- Row 2x of the map of R105. -/
def row2 : List Row :=
  [ .word .jsrAbs, .byte .andDpXInd, .long .jsl, .byte .andSr,
    .byte .bitDp, .byte .andDp, .byte .rolDp, .byte .andDpIndLong,
    .implied .plp, .immM .andImm, .implied .rolAcc, .implied .pld,
    .word .bitAbs, .word .andAbs, .word .rolAbs, .long .andLong ]

/-- Row 3x of the map of R105. -/
def row3 : List Row :=
  [ .byte .bmi, .byte .andDpIndY, .byte .andDpInd, .byte .andSrIndY,
    .byte .bitDpX, .byte .andDpX, .byte .rolDpX, .byte .andDpIndLongY,
    .implied .sec, .word .andAbsY, .implied .decAcc, .implied .tsc,
    .word .bitAbsX, .word .andAbsX, .word .rolAbsX, .long .andLongX ]

/-- Row 4x of the map of R105. -/
def row4 : List Row :=
  [ .implied .rti, .byte .eorDpXInd, .byte .wdm, .byte .eorSr,
    .banks .mvp, .byte .eorDp, .byte .lsrDp, .byte .eorDpIndLong,
    .implied .pha, .immM .eorImm, .implied .lsrAcc, .implied .phk,
    .word .jmpAbs, .word .eorAbs, .word .lsrAbs, .long .eorLong ]

/-- Row 5x of the map of R105. -/
def row5 : List Row :=
  [ .byte .bvc, .byte .eorDpIndY, .byte .eorDpInd, .byte .eorSrIndY,
    .banks .mvn, .byte .eorDpX, .byte .lsrDpX, .byte .eorDpIndLongY,
    .implied .cli, .word .eorAbsY, .implied .phy, .implied .tcd,
    .long .jmlLong, .word .eorAbsX, .word .lsrAbsX, .long .eorLongX ]

/-- Row 6x of the map of R105. -/
def row6 : List Row :=
  [ .implied .rts, .byte .adcDpXInd, .word .per, .byte .adcSr,
    .byte .stzDp, .byte .adcDp, .byte .rorDp, .byte .adcDpIndLong,
    .implied .pla, .immM .adcImm, .implied .rorAcc, .implied .rtl,
    .word .jmpAbsInd, .word .adcAbs, .word .rorAbs, .long .adcLong ]

/-- Row 7x of the map of R105. -/
def row7 : List Row :=
  [ .byte .bvs, .byte .adcDpIndY, .byte .adcDpInd, .byte .adcSrIndY,
    .byte .stzDpX, .byte .adcDpX, .byte .rorDpX, .byte .adcDpIndLongY,
    .implied .sei, .word .adcAbsY, .implied .ply, .implied .tdc,
    .word .jmpAbsXInd, .word .adcAbsX, .word .rorAbsX, .long .adcLongX ]

/-- Row 8x of the map of R105. -/
def row8 : List Row :=
  [ .byte .bra, .byte .staDpXInd, .word .brl, .byte .staSr,
    .byte .styDp, .byte .staDp, .byte .stxDp, .byte .staDpIndLong,
    .implied .dey, .immM .bitImm, .implied .txa, .implied .phb,
    .word .styAbs, .word .staAbs, .word .stxAbs, .long .staLong ]

/-- Row 9x of the map of R105. -/
def row9 : List Row :=
  [ .byte .bcc, .byte .staDpIndY, .byte .staDpInd, .byte .staSrIndY,
    .byte .styDpX, .byte .staDpX, .byte .stxDpY, .byte .staDpIndLongY,
    .implied .tya, .word .staAbsY, .implied .txs, .implied .txy,
    .word .stzAbs, .word .staAbsX, .word .stzAbsX, .long .staLongX ]

/-- Row Ax of the map of R105. -/
def rowA : List Row :=
  [ .immX .ldyImm, .byte .ldaDpXInd, .immX .ldxImm, .byte .ldaSr,
    .byte .ldyDp, .byte .ldaDp, .byte .ldxDp, .byte .ldaDpIndLong,
    .implied .tay, .immM .ldaImm, .implied .tax, .implied .plb,
    .word .ldyAbs, .word .ldaAbs, .word .ldxAbs, .long .ldaLong ]

/-- Row Bx of the map of R105. -/
def rowB : List Row :=
  [ .byte .bcs, .byte .ldaDpIndY, .byte .ldaDpInd, .byte .ldaSrIndY,
    .byte .ldyDpX, .byte .ldaDpX, .byte .ldxDpY, .byte .ldaDpIndLongY,
    .implied .clv, .word .ldaAbsY, .implied .tsx, .implied .tyx,
    .word .ldyAbsX, .word .ldaAbsX, .word .ldxAbsY, .long .ldaLongX ]

/-- Row Cx of the map of R105. -/
def rowC : List Row :=
  [ .immX .cpyImm, .byte .cmpDpXInd, .byte .rep, .byte .cmpSr,
    .byte .cpyDp, .byte .cmpDp, .byte .decDp, .byte .cmpDpIndLong,
    .implied .iny, .immM .cmpImm, .implied .dex, .implied .wai,
    .word .cpyAbs, .word .cmpAbs, .word .decAbs, .long .cmpLong ]

/-- Row Dx of the map of R105. -/
def rowD : List Row :=
  [ .byte .bne, .byte .cmpDpIndY, .byte .cmpDpInd, .byte .cmpSrIndY,
    .byte .pei, .byte .cmpDpX, .byte .decDpX, .byte .cmpDpIndLongY,
    .implied .cld, .word .cmpAbsY, .implied .phx, .implied .stp,
    .word .jmlAbsIndLong, .word .cmpAbsX, .word .decAbsX, .long .cmpLongX ]

/-- Row Ex of the map of R105. -/
def rowE : List Row :=
  [ .immX .cpxImm, .byte .sbcDpXInd, .byte .sep, .byte .sbcSr,
    .byte .cpxDp, .byte .sbcDp, .byte .incDp, .byte .sbcDpIndLong,
    .implied .inx, .immM .sbcImm, .implied .nop, .implied .xba,
    .word .cpxAbs, .word .sbcAbs, .word .incAbs, .long .sbcLong ]

/-- Row Fx of the map of R105. -/
def rowF : List Row :=
  [ .byte .beq, .byte .sbcDpIndY, .byte .sbcDpInd, .byte .sbcSrIndY,
    .word .pea, .byte .sbcDpX, .byte .incDpX, .byte .sbcDpIndLongY,
    .implied .sed, .word .sbcAbsY, .implied .plx, .implied .xce,
    .word .jsrAbsXInd, .word .sbcAbsX, .word .incAbsX, .long .sbcLongX ]

/-- The opcode map (R105), opcode byte 0x00 first. PRESUMED: the spec supplies all but six bytes of it from general
knowledge (R114; notes/assumptions/7.md). -/
def opcodeTable : List Row :=
  row0 ++ row1 ++ row2 ++ row3 ++ row4 ++ row5 ++ row6 ++ row7 ++
  row8 ++ row9 ++ rowA ++ rowB ++ rowC ++ rowD ++ rowE ++ rowF

/-! ### The decoder -/

/-- Why bytes do not decode. -/
inductive DecodeError where
  /-- There is no opcode byte. -/
  | empty
  /-- The opcode byte has no row; no byte is such (R106, Laws/Decode.lean). -/
  | noRow (opcode : Byte)
  /-- The instruction needs more operand bytes than are given. -/
  | truncated (opcode : Byte)
  deriving DecidableEq, Repr

/-- Read an immediate of one or two bytes (R131), an 8-bit one zero-extended. -/
def readImm (w8 : Bool) (bytes : List Byte) : Option (Word × List Byte) :=
  match w8, bytes with
  | true, l :: rest => some (l.setWidth 16, rest)
  | false, l :: h :: rest => some (word l h, rest)
  | _, _ => none

/-- Read a row's operand bytes, in ascending address (R101, R102), when P.M is `m8` and P.X is `x8`. -/
def Row.read (m8 x8 : Bool) : Row → List Byte → Option (Instr × List Byte)
  | .implied i, rest => some (i, rest)
  | .byte f, b :: rest => some (f b, rest)
  | .word f, l :: h :: rest => some (f (Sys2Proof.word l h), rest)
  | .long f, l :: h :: b :: rest => some (f (Sys2Proof.long l h b), rest)
  | .immM f, bytes => (readImm m8 bytes).map fun vr => (f vr.1, vr.2)
  | .immX f, bytes => (readImm x8 bytes).map fun vr => (f vr.1, vr.2)
  | .banks f, dst :: src :: rest => some (f dst src, rest)
  | _, _ => none

/-- The instruction at the head of a byte list and the bytes after it, or why there is none (R100 to R104). -/
def decode (m8 x8 : Bool) : List Byte → Except DecodeError (Instr × List Byte)
  | [] => .error .empty
  | op :: bytes =>
    match opcodeTable[op.toNat]? with
    | none => .error (.noRow op)
    | some row =>
      match row.read m8 x8 bytes with
      | none => .error (.truncated op)
      | some ir => .ok ir

/-! ### The encoder -/

/-- The opcode byte of an instruction (the rules of 41_load_store.md to 47_block_misc.md). -/
def Instr.opcode : Instr → Byte
  | .ldaDpXInd _ => 0xA1
  | .ldaSr _ => 0xA3
  | .ldaDp _ => 0xA5
  | .ldaDpIndLong _ => 0xA7
  | .ldaImm _ => 0xA9
  | .ldaAbs _ => 0xAD
  | .ldaLong _ => 0xAF
  | .ldaDpIndY _ => 0xB1
  | .ldaDpInd _ => 0xB2
  | .ldaSrIndY _ => 0xB3
  | .ldaDpX _ => 0xB5
  | .ldaDpIndLongY _ => 0xB7
  | .ldaAbsY _ => 0xB9
  | .ldaAbsX _ => 0xBD
  | .ldaLongX _ => 0xBF
  | .ldxImm _ => 0xA2
  | .ldxDp _ => 0xA6
  | .ldxAbs _ => 0xAE
  | .ldxDpY _ => 0xB6
  | .ldxAbsY _ => 0xBE
  | .ldyImm _ => 0xA0
  | .ldyDp _ => 0xA4
  | .ldyAbs _ => 0xAC
  | .ldyDpX _ => 0xB4
  | .ldyAbsX _ => 0xBC
  | .staDpXInd _ => 0x81
  | .staSr _ => 0x83
  | .staDp _ => 0x85
  | .staDpIndLong _ => 0x87
  | .staAbs _ => 0x8D
  | .staLong _ => 0x8F
  | .staDpIndY _ => 0x91
  | .staDpInd _ => 0x92
  | .staSrIndY _ => 0x93
  | .staDpX _ => 0x95
  | .staDpIndLongY _ => 0x97
  | .staAbsY _ => 0x99
  | .staAbsX _ => 0x9D
  | .staLongX _ => 0x9F
  | .stxDp _ => 0x86
  | .stxAbs _ => 0x8E
  | .stxDpY _ => 0x96
  | .styDp _ => 0x84
  | .styAbs _ => 0x8C
  | .styDpX _ => 0x94
  | .stzDp _ => 0x64
  | .stzDpX _ => 0x74
  | .stzAbs _ => 0x9C
  | .stzAbsX _ => 0x9E
  | .adcDpXInd _ => 0x61
  | .adcSr _ => 0x63
  | .adcDp _ => 0x65
  | .adcDpIndLong _ => 0x67
  | .adcImm _ => 0x69
  | .adcAbs _ => 0x6D
  | .adcLong _ => 0x6F
  | .adcDpIndY _ => 0x71
  | .adcDpInd _ => 0x72
  | .adcSrIndY _ => 0x73
  | .adcDpX _ => 0x75
  | .adcDpIndLongY _ => 0x77
  | .adcAbsY _ => 0x79
  | .adcAbsX _ => 0x7D
  | .adcLongX _ => 0x7F
  | .sbcDpXInd _ => 0xE1
  | .sbcSr _ => 0xE3
  | .sbcDp _ => 0xE5
  | .sbcDpIndLong _ => 0xE7
  | .sbcImm _ => 0xE9
  | .sbcAbs _ => 0xED
  | .sbcLong _ => 0xEF
  | .sbcDpIndY _ => 0xF1
  | .sbcDpInd _ => 0xF2
  | .sbcSrIndY _ => 0xF3
  | .sbcDpX _ => 0xF5
  | .sbcDpIndLongY _ => 0xF7
  | .sbcAbsY _ => 0xF9
  | .sbcAbsX _ => 0xFD
  | .sbcLongX _ => 0xFF
  | .andDpXInd _ => 0x21
  | .andSr _ => 0x23
  | .andDp _ => 0x25
  | .andDpIndLong _ => 0x27
  | .andImm _ => 0x29
  | .andAbs _ => 0x2D
  | .andLong _ => 0x2F
  | .andDpIndY _ => 0x31
  | .andDpInd _ => 0x32
  | .andSrIndY _ => 0x33
  | .andDpX _ => 0x35
  | .andDpIndLongY _ => 0x37
  | .andAbsY _ => 0x39
  | .andAbsX _ => 0x3D
  | .andLongX _ => 0x3F
  | .oraDpXInd _ => 0x01
  | .oraSr _ => 0x03
  | .oraDp _ => 0x05
  | .oraDpIndLong _ => 0x07
  | .oraImm _ => 0x09
  | .oraAbs _ => 0x0D
  | .oraLong _ => 0x0F
  | .oraDpIndY _ => 0x11
  | .oraDpInd _ => 0x12
  | .oraSrIndY _ => 0x13
  | .oraDpX _ => 0x15
  | .oraDpIndLongY _ => 0x17
  | .oraAbsY _ => 0x19
  | .oraAbsX _ => 0x1D
  | .oraLongX _ => 0x1F
  | .eorDpXInd _ => 0x41
  | .eorSr _ => 0x43
  | .eorDp _ => 0x45
  | .eorDpIndLong _ => 0x47
  | .eorImm _ => 0x49
  | .eorAbs _ => 0x4D
  | .eorLong _ => 0x4F
  | .eorDpIndY _ => 0x51
  | .eorDpInd _ => 0x52
  | .eorSrIndY _ => 0x53
  | .eorDpX _ => 0x55
  | .eorDpIndLongY _ => 0x57
  | .eorAbsY _ => 0x59
  | .eorAbsX _ => 0x5D
  | .eorLongX _ => 0x5F
  | .cmpDpXInd _ => 0xC1
  | .cmpSr _ => 0xC3
  | .cmpDp _ => 0xC5
  | .cmpDpIndLong _ => 0xC7
  | .cmpImm _ => 0xC9
  | .cmpAbs _ => 0xCD
  | .cmpLong _ => 0xCF
  | .cmpDpIndY _ => 0xD1
  | .cmpDpInd _ => 0xD2
  | .cmpSrIndY _ => 0xD3
  | .cmpDpX _ => 0xD5
  | .cmpDpIndLongY _ => 0xD7
  | .cmpAbsY _ => 0xD9
  | .cmpAbsX _ => 0xDD
  | .cmpLongX _ => 0xDF
  | .cpxImm _ => 0xE0
  | .cpxDp _ => 0xE4
  | .cpxAbs _ => 0xEC
  | .cpyImm _ => 0xC0
  | .cpyDp _ => 0xC4
  | .cpyAbs _ => 0xCC
  | .bitDp _ => 0x24
  | .bitAbs _ => 0x2C
  | .bitDpX _ => 0x34
  | .bitAbsX _ => 0x3C
  | .bitImm _ => 0x89
  | .aslDp _ => 0x06
  | .aslAcc => 0x0A
  | .aslAbs _ => 0x0E
  | .aslDpX _ => 0x16
  | .aslAbsX _ => 0x1E
  | .lsrDp _ => 0x46
  | .lsrAcc => 0x4A
  | .lsrAbs _ => 0x4E
  | .lsrDpX _ => 0x56
  | .lsrAbsX _ => 0x5E
  | .rolDp _ => 0x26
  | .rolAcc => 0x2A
  | .rolAbs _ => 0x2E
  | .rolDpX _ => 0x36
  | .rolAbsX _ => 0x3E
  | .rorDp _ => 0x66
  | .rorAcc => 0x6A
  | .rorAbs _ => 0x6E
  | .rorDpX _ => 0x76
  | .rorAbsX _ => 0x7E
  | .incAcc => 0x1A
  | .incDp _ => 0xE6
  | .incAbs _ => 0xEE
  | .incDpX _ => 0xF6
  | .incAbsX _ => 0xFE
  | .decAcc => 0x3A
  | .decDp _ => 0xC6
  | .decAbs _ => 0xCE
  | .decDpX _ => 0xD6
  | .decAbsX _ => 0xDE
  | .inx => 0xE8
  | .iny => 0xC8
  | .dex => 0xCA
  | .dey => 0x88
  | .trbDp _ => 0x14
  | .trbAbs _ => 0x1C
  | .tsbDp _ => 0x04
  | .tsbAbs _ => 0x0C
  | .bcc _ => 0x90
  | .bcs _ => 0xB0
  | .beq _ => 0xF0
  | .bmi _ => 0x30
  | .bne _ => 0xD0
  | .bpl _ => 0x10
  | .bvc _ => 0x50
  | .bvs _ => 0x70
  | .bra _ => 0x80
  | .brl _ => 0x82
  | .jmpAbs _ => 0x4C
  | .jmpAbsInd _ => 0x6C
  | .jmpAbsXInd _ => 0x7C
  | .jmlLong _ => 0x5C
  | .jmlAbsIndLong _ => 0xDC
  | .jsrAbs _ => 0x20
  | .jsrAbsXInd _ => 0xFC
  | .jsl _ => 0x22
  | .rts => 0x60
  | .rtl => 0x6B
  | .rti => 0x40
  | .brk _ => 0x00
  | .cop _ => 0x02
  | .mvn _ _ => 0x54
  | .mvp _ _ => 0x44
  | .nop => 0xEA
  | .wdm _ => 0x42
  | .wai => 0xCB
  | .stp => 0xDB
  | .pha => 0x48
  | .phx => 0xDA
  | .phy => 0x5A
  | .php => 0x08
  | .phb => 0x8B
  | .phd => 0x0B
  | .phk => 0x4B
  | .pla => 0x68
  | .plx => 0xFA
  | .ply => 0x7A
  | .plp => 0x28
  | .plb => 0xAB
  | .pld => 0x2B
  | .pea _ => 0xF4
  | .pei _ => 0xD4
  | .per _ => 0x62
  | .rep _ => 0xC2
  | .sep _ => 0xE2
  | .clc => 0x18
  | .cld => 0xD8
  | .cli => 0x58
  | .clv => 0xB8
  | .sec => 0x38
  | .sed => 0xF8
  | .sei => 0x78
  | .tax => 0xAA
  | .tay => 0xA8
  | .txa => 0x8A
  | .tya => 0x98
  | .txy => 0x9B
  | .tyx => 0xBB
  | .tsx => 0xBA
  | .txs => 0x9A
  | .tcd => 0x5B
  | .tdc => 0x7B
  | .tcs => 0x1B
  | .tsc => 0x3B
  | .xba => 0xEB
  | .xce => 0xFB

/-- An immediate's bytes at width 8 or 16. -/
def immBytes (w8 : Bool) (v : Word) : List Byte := if w8 then [lo v] else [lo v, hi v]

/-- The operand bytes, in ascending address (R101). -/
def Operand.bytes (m8 x8 : Bool) : Operand → List Byte
  | .none => []
  | .byte b => [b]
  | .word w => [lo w, hi w]
  | .long a => [lo (longWord a), hi (longWord a), longBank a]
  | .immM v => immBytes m8 v
  | .immX v => immBytes x8 v
  | .banks dst src => [dst, src]

/-- The bytes of an instruction when P.M is `m8` and P.X is `x8`. -/
def encode (m8 x8 : Bool) (i : Instr) : List Byte := i.opcode :: i.operand.bytes m8 x8

/-- The length of an instruction in bytes when P.M is `m8` and P.X is `x8` (R109). -/
def Instr.length (m8 x8 : Bool) (i : Instr) : Nat := 1 + (i.operand.bytes m8 x8).length

/-! ### The table's numbering of bits -/

/-- The first four bytes of an instruction whose bits are `w`, bit 0 the least significant bit of the first byte, and
every bit from `nbits` on 0. -/
def tableBytes (nbits w : Nat) : List Byte :=
  [0, 1, 2, 3].map fun k => BitVec.ofNat 8 (w % 2 ^ nbits / 2 ^ (8 * k))

/-- The instruction read from a table word under the widths in force after reset, P.M = P.X = 1
(notes/assumptions/29.md). -/
def decodeTableWord (nbits w : Nat) : Option Instr :=
  match decode true true (tableBytes nbits w) with
  | .ok ir => some ir.1
  | .error _ => none

end Sys2Proof
end

