-- ==== Sys2Proof/Machine/CycleTable.lean ====
section
/-! DEFINITION. `BaseCycles` at its default (30_encoding.md R111): the cycle expression of every opcode, and the table of
them that `Config.baseCycles` holds by default. -/

namespace Sys2Proof.Machine

/-- The cycles of a trap or interrupt entry by default: 7 + e0 (R405, D20). -/
def trapCost : CycleExpr := { base := 7, e0 := 1 }

/-- The default expression of every opcode (R111). PRESUMED but for the entries R114 lists (D5: notes/assumptions/8.md).
Those of BRK and COP are added inside the trap entry. -/
def cycleExpr : Instr → CycleExpr
  | .ldaDpXInd _ => { base := 6, m16 := 1, dl := 1 }
  | .ldaSr _ => { base := 4, m16 := 1 }
  | .ldaDp _ => { base := 3, m16 := 1, dl := 1 }
  | .ldaDpIndLong _ => { base := 6, m16 := 1, dl := 1 }
  | .ldaImm _ => { base := 2, m16 := 1 }
  | .ldaAbs _ => { base := 4, m16 := 1 }
  | .ldaLong _ => { base := 5, m16 := 1 }
  | .ldaDpIndY _ => { base := 5, m16 := 1, dl := 1, px := 1 }
  | .ldaDpInd _ => { base := 5, m16 := 1, dl := 1 }
  | .ldaSrIndY _ => { base := 7, m16 := 1 }
  | .ldaDpX _ => { base := 4, m16 := 1, dl := 1 }
  | .ldaDpIndLongY _ => { base := 6, m16 := 1, dl := 1 }
  | .ldaAbsY _ => { base := 4, m16 := 1, px := 1 }
  | .ldaAbsX _ => { base := 4, m16 := 1, px := 1 }
  | .ldaLongX _ => { base := 5, m16 := 1 }
  | .ldxImm _ => { base := 2, x16 := 1 }
  | .ldxDp _ => { base := 3, x16 := 1, dl := 1 }
  | .ldxAbs _ => { base := 4, x16 := 1 }
  | .ldxDpY _ => { base := 4, x16 := 1, dl := 1 }
  | .ldxAbsY _ => { base := 4, x16 := 1, px := 1 }
  | .ldyImm _ => { base := 2, x16 := 1 }
  | .ldyDp _ => { base := 3, x16 := 1, dl := 1 }
  | .ldyAbs _ => { base := 4, x16 := 1 }
  | .ldyDpX _ => { base := 4, x16 := 1, dl := 1 }
  | .ldyAbsX _ => { base := 4, x16 := 1, px := 1 }
  | .staDpXInd _ => { base := 6, m16 := 1, dl := 1 }
  | .staSr _ => { base := 4, m16 := 1 }
  | .staDp _ => { base := 3, m16 := 1, dl := 1 }
  | .staDpIndLong _ => { base := 6, m16 := 1, dl := 1 }
  | .staAbs _ => { base := 4, m16 := 1 }
  | .staLong _ => { base := 5, m16 := 1 }
  | .staDpIndY _ => { base := 6, m16 := 1, dl := 1 }
  | .staDpInd _ => { base := 5, m16 := 1, dl := 1 }
  | .staSrIndY _ => { base := 7, m16 := 1 }
  | .staDpX _ => { base := 4, m16 := 1, dl := 1 }
  | .staDpIndLongY _ => { base := 6, m16 := 1, dl := 1 }
  | .staAbsY _ => { base := 5, m16 := 1 }
  | .staAbsX _ => { base := 5, m16 := 1 }
  | .staLongX _ => { base := 5, m16 := 1 }
  | .stxDp _ => { base := 3, x16 := 1, dl := 1 }
  | .stxAbs _ => { base := 4, x16 := 1 }
  | .stxDpY _ => { base := 4, x16 := 1, dl := 1 }
  | .styDp _ => { base := 3, x16 := 1, dl := 1 }
  | .styAbs _ => { base := 4, x16 := 1 }
  | .styDpX _ => { base := 4, x16 := 1, dl := 1 }
  | .stzDp _ => { base := 3, m16 := 1, dl := 1 }
  | .stzDpX _ => { base := 4, m16 := 1, dl := 1 }
  | .stzAbs _ => { base := 4, m16 := 1 }
  | .stzAbsX _ => { base := 5, m16 := 1 }
  | .adcDpXInd _ => { base := 6, m16 := 1, dl := 1 }
  | .adcSr _ => { base := 4, m16 := 1 }
  | .adcDp _ => { base := 3, m16 := 1, dl := 1 }
  | .adcDpIndLong _ => { base := 6, m16 := 1, dl := 1 }
  | .adcImm _ => { base := 2, m16 := 1 }
  | .adcAbs _ => { base := 4, m16 := 1 }
  | .adcLong _ => { base := 5, m16 := 1 }
  | .adcDpIndY _ => { base := 5, m16 := 1, dl := 1, px := 1 }
  | .adcDpInd _ => { base := 5, m16 := 1, dl := 1 }
  | .adcSrIndY _ => { base := 7, m16 := 1 }
  | .adcDpX _ => { base := 4, m16 := 1, dl := 1 }
  | .adcDpIndLongY _ => { base := 6, m16 := 1, dl := 1 }
  | .adcAbsY _ => { base := 4, m16 := 1, px := 1 }
  | .adcAbsX _ => { base := 4, m16 := 1, px := 1 }
  | .adcLongX _ => { base := 5, m16 := 1 }
  | .sbcDpXInd _ => { base := 6, m16 := 1, dl := 1 }
  | .sbcSr _ => { base := 4, m16 := 1 }
  | .sbcDp _ => { base := 3, m16 := 1, dl := 1 }
  | .sbcDpIndLong _ => { base := 6, m16 := 1, dl := 1 }
  | .sbcImm _ => { base := 2, m16 := 1 }
  | .sbcAbs _ => { base := 4, m16 := 1 }
  | .sbcLong _ => { base := 5, m16 := 1 }
  | .sbcDpIndY _ => { base := 5, m16 := 1, dl := 1, px := 1 }
  | .sbcDpInd _ => { base := 5, m16 := 1, dl := 1 }
  | .sbcSrIndY _ => { base := 7, m16 := 1 }
  | .sbcDpX _ => { base := 4, m16 := 1, dl := 1 }
  | .sbcDpIndLongY _ => { base := 6, m16 := 1, dl := 1 }
  | .sbcAbsY _ => { base := 4, m16 := 1, px := 1 }
  | .sbcAbsX _ => { base := 4, m16 := 1, px := 1 }
  | .sbcLongX _ => { base := 5, m16 := 1 }
  | .andDpXInd _ => { base := 6, m16 := 1, dl := 1 }
  | .andSr _ => { base := 4, m16 := 1 }
  | .andDp _ => { base := 3, m16 := 1, dl := 1 }
  | .andDpIndLong _ => { base := 6, m16 := 1, dl := 1 }
  | .andImm _ => { base := 2, m16 := 1 }
  | .andAbs _ => { base := 4, m16 := 1 }
  | .andLong _ => { base := 5, m16 := 1 }
  | .andDpIndY _ => { base := 5, m16 := 1, dl := 1, px := 1 }
  | .andDpInd _ => { base := 5, m16 := 1, dl := 1 }
  | .andSrIndY _ => { base := 7, m16 := 1 }
  | .andDpX _ => { base := 4, m16 := 1, dl := 1 }
  | .andDpIndLongY _ => { base := 6, m16 := 1, dl := 1 }
  | .andAbsY _ => { base := 4, m16 := 1, px := 1 }
  | .andAbsX _ => { base := 4, m16 := 1, px := 1 }
  | .andLongX _ => { base := 5, m16 := 1 }
  | .oraDpXInd _ => { base := 6, m16 := 1, dl := 1 }
  | .oraSr _ => { base := 4, m16 := 1 }
  | .oraDp _ => { base := 3, m16 := 1, dl := 1 }
  | .oraDpIndLong _ => { base := 6, m16 := 1, dl := 1 }
  | .oraImm _ => { base := 2, m16 := 1 }
  | .oraAbs _ => { base := 4, m16 := 1 }
  | .oraLong _ => { base := 5, m16 := 1 }
  | .oraDpIndY _ => { base := 5, m16 := 1, dl := 1, px := 1 }
  | .oraDpInd _ => { base := 5, m16 := 1, dl := 1 }
  | .oraSrIndY _ => { base := 7, m16 := 1 }
  | .oraDpX _ => { base := 4, m16 := 1, dl := 1 }
  | .oraDpIndLongY _ => { base := 6, m16 := 1, dl := 1 }
  | .oraAbsY _ => { base := 4, m16 := 1, px := 1 }
  | .oraAbsX _ => { base := 4, m16 := 1, px := 1 }
  | .oraLongX _ => { base := 5, m16 := 1 }
  | .eorDpXInd _ => { base := 6, m16 := 1, dl := 1 }
  | .eorSr _ => { base := 4, m16 := 1 }
  | .eorDp _ => { base := 3, m16 := 1, dl := 1 }
  | .eorDpIndLong _ => { base := 6, m16 := 1, dl := 1 }
  | .eorImm _ => { base := 2, m16 := 1 }
  | .eorAbs _ => { base := 4, m16 := 1 }
  | .eorLong _ => { base := 5, m16 := 1 }
  | .eorDpIndY _ => { base := 5, m16 := 1, dl := 1, px := 1 }
  | .eorDpInd _ => { base := 5, m16 := 1, dl := 1 }
  | .eorSrIndY _ => { base := 7, m16 := 1 }
  | .eorDpX _ => { base := 4, m16 := 1, dl := 1 }
  | .eorDpIndLongY _ => { base := 6, m16 := 1, dl := 1 }
  | .eorAbsY _ => { base := 4, m16 := 1, px := 1 }
  | .eorAbsX _ => { base := 4, m16 := 1, px := 1 }
  | .eorLongX _ => { base := 5, m16 := 1 }
  | .cmpDpXInd _ => { base := 6, m16 := 1, dl := 1 }
  | .cmpSr _ => { base := 4, m16 := 1 }
  | .cmpDp _ => { base := 3, m16 := 1, dl := 1 }
  | .cmpDpIndLong _ => { base := 6, m16 := 1, dl := 1 }
  | .cmpImm _ => { base := 2, m16 := 1 }
  | .cmpAbs _ => { base := 4, m16 := 1 }
  | .cmpLong _ => { base := 5, m16 := 1 }
  | .cmpDpIndY _ => { base := 5, m16 := 1, dl := 1, px := 1 }
  | .cmpDpInd _ => { base := 5, m16 := 1, dl := 1 }
  | .cmpSrIndY _ => { base := 7, m16 := 1 }
  | .cmpDpX _ => { base := 4, m16 := 1, dl := 1 }
  | .cmpDpIndLongY _ => { base := 6, m16 := 1, dl := 1 }
  | .cmpAbsY _ => { base := 4, m16 := 1, px := 1 }
  | .cmpAbsX _ => { base := 4, m16 := 1, px := 1 }
  | .cmpLongX _ => { base := 5, m16 := 1 }
  | .cpxImm _ => { base := 2, x16 := 1 }
  | .cpxDp _ => { base := 3, x16 := 1, dl := 1 }
  | .cpxAbs _ => { base := 4, x16 := 1 }
  | .cpyImm _ => { base := 2, x16 := 1 }
  | .cpyDp _ => { base := 3, x16 := 1, dl := 1 }
  | .cpyAbs _ => { base := 4, x16 := 1 }
  | .bitDp _ => { base := 3, m16 := 1, dl := 1 }
  | .bitAbs _ => { base := 4, m16 := 1 }
  | .bitDpX _ => { base := 4, m16 := 1, dl := 1 }
  | .bitAbsX _ => { base := 4, m16 := 1, px := 1 }
  | .bitImm _ => { base := 2, m16 := 1 }
  | .aslDp _ => { base := 5, m16 := 2, dl := 1 }
  | .aslAcc => { base := 2 }
  | .aslAbs _ => { base := 6, m16 := 2 }
  | .aslDpX _ => { base := 6, m16 := 2, dl := 1 }
  | .aslAbsX _ => { base := 7, m16 := 2 }
  | .lsrDp _ => { base := 5, m16 := 2, dl := 1 }
  | .lsrAcc => { base := 2 }
  | .lsrAbs _ => { base := 6, m16 := 2 }
  | .lsrDpX _ => { base := 6, m16 := 2, dl := 1 }
  | .lsrAbsX _ => { base := 7, m16 := 2 }
  | .rolDp _ => { base := 5, m16 := 2, dl := 1 }
  | .rolAcc => { base := 2 }
  | .rolAbs _ => { base := 6, m16 := 2 }
  | .rolDpX _ => { base := 6, m16 := 2, dl := 1 }
  | .rolAbsX _ => { base := 7, m16 := 2 }
  | .rorDp _ => { base := 5, m16 := 2, dl := 1 }
  | .rorAcc => { base := 2 }
  | .rorAbs _ => { base := 6, m16 := 2 }
  | .rorDpX _ => { base := 6, m16 := 2, dl := 1 }
  | .rorAbsX _ => { base := 7, m16 := 2 }
  | .incAcc => { base := 2 }
  | .incDp _ => { base := 5, m16 := 2, dl := 1 }
  | .incAbs _ => { base := 6, m16 := 2 }
  | .incDpX _ => { base := 6, m16 := 2, dl := 1 }
  | .incAbsX _ => { base := 7, m16 := 2 }
  | .decAcc => { base := 2 }
  | .decDp _ => { base := 5, m16 := 2, dl := 1 }
  | .decAbs _ => { base := 6, m16 := 2 }
  | .decDpX _ => { base := 6, m16 := 2, dl := 1 }
  | .decAbsX _ => { base := 7, m16 := 2 }
  | .inx => { base := 2 }
  | .iny => { base := 2 }
  | .dex => { base := 2 }
  | .dey => { base := 2 }
  | .trbDp _ => { base := 5, m16 := 2, dl := 1 }
  | .trbAbs _ => { base := 6, m16 := 2 }
  | .tsbDp _ => { base := 5, m16 := 2, dl := 1 }
  | .tsbAbs _ => { base := 6, m16 := 2 }
  | .bcc _ => { base := 2, t := 1, tx := 1 }
  | .bcs _ => { base := 2, t := 1, tx := 1 }
  | .beq _ => { base := 2, t := 1, tx := 1 }
  | .bmi _ => { base := 2, t := 1, tx := 1 }
  | .bne _ => { base := 2, t := 1, tx := 1 }
  | .bpl _ => { base := 2, t := 1, tx := 1 }
  | .bvc _ => { base := 2, t := 1, tx := 1 }
  | .bvs _ => { base := 2, t := 1, tx := 1 }
  | .bra _ => { base := 3, tx := 1 }
  | .brl _ => { base := 4 }
  | .jmpAbs _ => { base := 3 }
  | .jmpAbsInd _ => { base := 5 }
  | .jmpAbsXInd _ => { base := 6 }
  | .jmlLong _ => { base := 4 }
  | .jmlAbsIndLong _ => { base := 6 }
  | .jsrAbs _ => { base := 6 }
  | .jsrAbsXInd _ => { base := 8 }
  | .jsl _ => { base := 8 }
  | .rts => { base := 6 }
  | .rtl => { base := 6 }
  | .rti => { base := 6, e0 := 1 }
  | .brk _ => trapCost
  | .cop _ => trapCost
  | .mvn _ _ => { base := 7 }
  | .mvp _ _ => { base := 7 }
  | .nop => { base := 2 }
  | .wdm _ => { base := 2 }
  | .wai => { base := 3 }
  | .stp => { base := 3 }
  | .pha => { base := 3, m16 := 1 }
  | .phx => { base := 3, x16 := 1 }
  | .phy => { base := 3, x16 := 1 }
  | .php => { base := 3 }
  | .phb => { base := 3 }
  | .phd => { base := 4 }
  | .phk => { base := 3 }
  | .pla => { base := 4, m16 := 1 }
  | .plx => { base := 4, x16 := 1 }
  | .ply => { base := 4, x16 := 1 }
  | .plp => { base := 4 }
  | .plb => { base := 4 }
  | .pld => { base := 5 }
  | .pea _ => { base := 5 }
  | .pei _ => { base := 6, dl := 1 }
  | .per _ => { base := 6 }
  | .rep _ => { base := 3 }
  | .sep _ => { base := 3 }
  | .clc => { base := 2 }
  | .cld => { base := 2 }
  | .cli => { base := 2 }
  | .clv => { base := 2 }
  | .sec => { base := 2 }
  | .sed => { base := 2 }
  | .sei => { base := 2 }
  | .tax => { base := 2 }
  | .tay => { base := 2 }
  | .txa => { base := 2 }
  | .tya => { base := 2 }
  | .txy => { base := 2 }
  | .tyx => { base := 2 }
  | .tsx => { base := 2 }
  | .txs => { base := 2 }
  | .tcd => { base := 2 }
  | .tdc => { base := 2 }
  | .tcs => { base := 2 }
  | .tsc => { base := 2 }
  | .xba => { base := 3 }
  | .xce => { base := 2 }

/-- The default expression of a cell of the opcode map; an operand does not matter. -/
def rowCycles : Row → CycleExpr
  | .implied i => cycleExpr i
  | .byte f => cycleExpr (f 0)
  | .word f => cycleExpr (f 0)
  | .long f => cycleExpr (f 0)
  | .immM f => cycleExpr (f 0)
  | .immX f => cycleExpr (f 0)
  | .banks f => cycleExpr (f 0 0)

/-- The table of R111, in the order of the opcode map (R105). -/
def defaultCycles : CycleTable :=
  { opcodes := ⟨(opcodeTable.map rowCycles).toArray, by decide +kernel⟩, entry := trapCost }

end Sys2Proof.Machine
end

