-- ==== Sys2Proof/Machine/Bus.lean ====
section
/-! DEFINITION. The bus_adapter unit (20_memory.md R60 to R66): the sparse memory in canonical form, the memory map, and
the two bus operations `read` and `write`. -/

namespace Sys2Proof.Machine

/-- The stored bytes behind the bus, as (address, byte) pairs. The address of a byte is its home address: under
MinimalMap a byte of WRAM is listed under 0x7E0000 + k, whichever of its two addresses wrote it. -/
abbrev Memory := List Host.Cell

/-- What an unlisted byte reads as. DESIGN CHOICE, of the representation only: power-on contents of any value are listed by
`Memory.ofCells` (R65, notes/assumptions/3.md). -/
def Memory.fill : Byte := 0x00

/-- The byte stored under an address. -/
def Memory.read : Memory → Nat → Byte
  | [], _ => Memory.fill
  | c :: m, k => if c.1 = k then c.2 else Memory.read m k

/-- The cells but those of one address. -/
def Memory.erase (m : Memory) (k : Nat) : Memory :=
  m.filter fun c => c.1 ≠ k

/-- Put a cell before the first cell of a greater address. -/
def Memory.insert (k : Nat) (v : Byte) : Memory → Memory
  | [] => [(k, v)]
  | c :: m => if k < c.1 then (k, v) :: c :: m else c :: Memory.insert k v m

/-- Store a byte, keeping the canonical form: a byte equal to what an unlisted address reads as is not listed. -/
def Memory.write (m : Memory) (k : Nat) (v : Byte) : Memory :=
  if v = Memory.fill then m.erase k else Memory.insert k v (m.erase k)

/-- The memory that holds the bytes of a list, in canonical form: the first cell of an address counts, and cells outside the
24-bit space are dropped (R60). -/
def Memory.ofCells : List Host.Cell → Memory
  | [] => []
  | c :: cells => if c.1 < 2 ^ 24 then Memory.write (Memory.ofCells cells) c.1 c.2 else Memory.ofCells cells

/-- The canonical form: addresses strictly rising, no listed byte equal to what an unlisted address reads as, and every
address inside the 24-bit space (R60). -/
abbrev Memory.wf (m : Memory) : Prop :=
  m.Pairwise (fun c d => c.1 < d.1) ∧ (∀ c ∈ m, c.2 ≠ Memory.fill) ∧ ∀ c ∈ m, c.1 < 2 ^ 24

/-- What answers at an address of the bus. -/
inductive Slot where
  /-- A stored byte under its home address, with the rule of its region. -/
  | ram (home : Addr) (rule : WriteRule)
  /-- The ROM byte of an offset, before the modulo of R63. -/
  | rom (offset : Nat)
  /-- No row of the map claims the address (R64). -/
  | openBus
  deriving DecidableEq, Repr

/-- The first region that claims the address decides (R62). -/
def locate : List Region → Nat → Slot
  | [], _ => .openBus
  | r :: rs, a =>
    if r.base ≤ a ∧ a < r.base + r.size then
      match r.kind with
      | .ram rule => .ram (BitVec.ofNat 24 (r.home + (a - r.base))) rule
      | .rom => .rom (r.home + (a - r.base))
    else locate rs a

/-- `MinimalMap`, the default bus instance (R62): the mirror of low WRAM, the 128 KiB of WRAM, and ROM. -/
def minimalMap : List Region :=
  [ { base := 0x000000, size := 0x002000, kind := .ram .plain, home := 0x7E0000 },
    { base := 0x7E0000, size := 0x020000, kind := .ram .plain, home := 0x7E0000 },
    { base := 0x800000, size := 0x800000, kind := .rom, home := 0x000000 } ]

/-- `FlatTestBus`: 2^24 independent read/write bytes (R66). -/
def flatTestBus : List Region :=
  [ { base := 0x000000, size := 0x1000000, kind := .ram .plain, home := 0x000000 } ]

/-- The defaults of R5. ROM and WRAM_INIT have no default in the spec: DESIGN CHOICE, no ROM is present and no byte of
WRAM_INIT is listed, which makes it all zero in this one configuration (notes/assumptions/5.md, 3.md).
Undefined = {}, PULL_BD_SETS_NZ = true and the cycle table are the spec's decisions D1, D15 and D5
(notes/assumptions/6.md, 8.md). -/
def defaultConfig : Config :=
  { bus := minimalMap, romSize := 0, rom := [], wramInit := [], undefinedOpcodes := [],
    baseCycles := defaultCycles, pullBDSetsNZ := true }

/-- A ROM byte: the offset modulo ROM_SIZE, and 0x00 when ROM_SIZE is 0 (R63). -/
def romByte (cfg : Config) (offset : Nat) : Byte :=
  if cfg.romSize = 0 then 0x00 else Memory.read cfg.rom (offset % cfg.romSize)

/-- The byte a slot answers with (R62 to R64). -/
def slotRead (cfg : Config) (mem : Memory) : Slot → Byte
  | .ram h _ => mem.read h.toNat
  | .rom k => romByte cfg k
  | .openBus => 0x00

/-- `read(addr)` of the bus contract (R61). -/
def busReadAt (cfg : Config) (mem : Memory) (addr : Addr) : Byte :=
  slotRead cfg mem (locate cfg.bus addr.toNat)

/-- The byte a write of `v` leaves in the stored byte that an address names, by the rule of its region (R61, R66). -/
def storedByte (mem : Memory) (home addr : Addr) (v : Byte) : WriteRule → Byte
  | .plain => v
  | .masked k => (mem.read home.toNat &&& ~~~k) ||| (v &&& k)
  | .device id => Config.deviceWrite id mem addr.toNat v

/-- `write(addr, v)` of the bus contract (R61): at most the byte addressed changes; writes to ROM and open bus are discarded
(R63, R64). -/
def busWriteAt (cfg : Config) (mem : Memory) (addr : Addr) (v : Byte) : Memory :=
  match locate cfg.bus addr.toNat with
  | .ram h rule => mem.write h.toNat (storedByte mem h addr v rule)
  | .rom _ => mem
  | .openBus => mem

/-- `bank:a16` (R6). -/
def addr24 (bank : Byte) (a16 : Word) : Addr := bank ++ a16

/-- `MemReadB(bank, a16, 2)` on bare memory (R68); State.reset reads the reset vector with it. -/
def busReadWordB (cfg : Config) (mem : Memory) (bank : Byte) (a16 : Word) : Word :=
  word (busReadAt cfg mem (addr24 bank a16)) (busReadAt cfg mem (addr24 bank (a16 + 1)))

end Sys2Proof.Machine
end

