-- ==== Sys2Proof/Machine/State.lean ====
section
/-! DEFINITION. The state of CORE (10_state.md R20 to R45, 20_memory.md R62), the reasons a step can stop, and the state
after reset (70_reset_and_hazards.md R440). -/

namespace Sys2Proof.Machine

/-- One record of the diagnostic channel: `Diagnostic(opcode, addr)` (30_encoding.md R107). -/
structure Diagnostic where
  opcode : Byte
  addr : Addr
  deriving DecidableEq, Repr

/-- Everything CORE holds between two Steps, the memory behind the bus, the diagnostic list, and the parameters. -/
structure State where
  /-- `A`, the accumulator (R20). -/
  a : Word
  /-- `X`, an index register (R21). -/
  x : Word
  /-- `Y`, an index register (R21). -/
  y : Word
  /-- `SP`, the stack pointer (R22). -/
  sp : Word
  /-- `PC`, the program counter inside bank PB (R23). -/
  pc : Word
  /-- `PB`, the program bank (R24). -/
  pb : Byte
  /-- `DB`, the data bank (R24). -/
  db : Byte
  /-- `D`, the direct-page register (R25). -/
  d : Word
  /-- `P`, the flag byte N V M X D I Z C (R26). -/
  p : Byte
  /-- `E`, the emulation-mode latch (R35). -/
  e : Bool
  /-- `stopped`, set by STP (R36). -/
  stopped : Bool
  /-- `waiting`, set by WAI (R36). -/
  waiting : Bool
  /-- `irq_pending` (R38). -/
  irqPending : Bool
  /-- `nmi_pending` (R38). -/
  nmiPending : Bool
  /-- `cycles`, the 64-bit tally (R37). -/
  cycles : BitVec 64
  /-- The diagnostic list, oldest record first (R107). -/
  diag : List Diagnostic
  /-- The read/write bytes behind the bus (R62). -/
  mem : Memory
  /-- The parameters of the machine (R5). -/
  cfg : Config
  deriving DecidableEq, Repr

/-- CORE has no faults (R400: "The CPU has no notion of fatal errors."), so there is no reason to fault: no meaning and
no step raises one. -/
inductive Fault where
  deriving DecidableEq, Repr

/-- Why the model would give no next state. -/
inductive Refusal where
  /-- Raised by an arm of `exec` whose instruction has no meaning yet; no arm uses it. Safe: the model stops where the
  hardware goes on. -/
  | notModelled (mnemonic : String)
  /-- Raised by `step` if the bytes at PB:PC did not decode. It never is: Laws/Decode.lean shows that any four bytes
  decode (notes/assumptions/30.md). Safe. -/
  | undecodable (reason : DecodeError)
  deriving DecidableEq, Repr

/-- The registers as `reset()` leaves them (R440, R42); memory and the diagnostic list are not touched by it.
`D`, `PB`, `DB` and `P` are the spec's decision D3 (notes/assumptions/10.md). -/
def State.resetWith (cfg : Config) (mem : Memory) (diag : List Diagnostic) : State :=
  { a := 0x0000
    x := 0x0000
    y := 0x0000
    sp := 0x01FF
    pc := busReadWordB cfg mem 0x00 0xFFFC
    pb := 0x00
    db := 0x00
    d := 0x0000
    p := 0x34
    e := true
    stopped := false
    waiting := false
    irqPending := false
    nmiPending := false
    cycles := 0
    diag := diag
    mem := mem
    cfg := cfg }

/-- The machine right after power-on and its first reset, for any parameters: WRAM holds WRAM_INIT (R42, R65), and no
diagnostic record has been made (DEDUCED: notes/assumptions/32.md). -/
def State.powerOn (cfg : Config) : State :=
  State.resetWith cfg (Memory.ofCells cfg.wramInit) []

/-- The machine right after its first reset, with the default parameters: nothing is listed in memory. -/
def State.reset : State :=
  State.powerOn defaultConfig

end Sys2Proof.Machine
end

