-- ==== Sys2Proof/Machine/Flags.lean ====
section
/-! DEFINITION. The flag_register and alu_ops units: the flags of P (10_state.md R26 to R34), the width selectors
(00_scope.md R9, R10), and the adders, shifts and comparison with the flags they give (42_alu.md, 43_rmw.md). -/

namespace Sys2Proof.Machine

/-- The eight flags of P (R26). -/
inductive Flag where
  | c | z | i | d | x | m | v | n
  deriving DecidableEq, Repr

/-- The bit of P that holds a flag (R26). -/
def Flag.bit : Flag → Nat
  | .c => 0
  | .z => 1
  | .i => 2
  | .d => 3
  | .x => 4
  | .m => 5
  | .v => 6
  | .n => 7

/-- P with one flag written and its other bits kept. -/
def Flag.put (f : Flag) (b : Bool) (p : Byte) : Byte :=
  if b then p ||| (1#8 <<< f.bit) else p &&& ~~~(1#8 <<< f.bit)

/-- `P.f` (R7). -/
def State.flag (s : State) (f : Flag) : Bool := s.p.getLsbD f.bit

/-- `P.f <- b` for one of the flags C Z I D V N, which needs no mode check (R40). -/
def State.putFlag (s : State) (f : Flag) (b : Bool) : State :=
  { s with p := f.put b s.p }

/-- An active width (R10). -/
inductive Width where
  | w8
  | w16
  deriving DecidableEq, Repr

/-- The width in bits. -/
def Width.bits : Width → Nat
  | .w8 => 8
  | .w16 => 16

/-- `v mod 2^w` (R6). -/
def Width.trunc : Width → Word → Word
  | .w8, v => v &&& 0x00FF
  | .w16, v => v

/-- `v[w-1]`, the top bit of the active width. -/
def Width.msb (w : Width) (v : Word) : Bool := v.getLsbD (w.bits - 1)

/-- `wA` (R10): the width of accumulator operations. -/
def State.wA (s : State) : Width := if s.flag .m then .w8 else .w16

/-- `wX` (R10): the width of index operations. -/
def State.wX (s : State) : Width := if s.flag .x then .w8 else .w16

/-- `SetNZ(v, w)` (R9). -/
def State.setNZ (s : State) (w : Width) (v : Word) : State :=
  (s.putFlag .n (w.msb v)).putFlag .z (decide (w.trunc v = 0))

/-- What an adder returns: the result of width w, the new carry, the new overflow (42_alu.md section 1). -/
structure AluOut where
  r : Word
  c : Bool
  v : Bool
  deriving DecidableEq, Repr

/-- `AdcBin(a, m, c, w)` (R190). The overflow formula is the spec's from general knowledge (notes/assumptions/11.md). -/
def adcBin (w : Width) (a m : Word) (c : Bool) : AluOut :=
  let s := a.toNat + m.toNat + c.toNat
  let r := BitVec.ofNat 16 (s % 2 ^ w.bits)
  { r := r
    c := decide (2 ^ w.bits ≤ s)
    v := w.msb ((a ^^^ r) &&& (m ^^^ r)) }

/-- `nib(v, i)` (R191): the i-th hexadecimal digit. -/
def nib (v : Word) (i : Nat) : Nat := v.toNat / 16 ^ i % 16

/-- The digit sum of one place of R191, adjusted. -/
def decAdjust (s : Nat) : Nat := if 9 < s then s + 6 else s

/-- The loop of R191 over the first `n` digits: the carry out of them, and their value. -/
def adcDecLoop (a m : Word) (c : Bool) : Nat → Nat × Nat
  | 0 => (c.toNat, 0)
  | n + 1 =>
    let kr := adcDecLoop a m c n
    let s := decAdjust (nib a n + nib m n + kr.1)
    (if 15 < s then 1 else 0, kr.2 + s % 16 * 16 ^ n)

/-- `AdcDec(a, m, c, w)` (R191, D13: notes/assumptions/12.md). -/
def adcDec (w : Width) (a m : Word) (c : Bool) : AluOut :=
  let kr := adcDecLoop a m c (w.bits / 4)
  { r := BitVec.ofNat 16 kr.2
    c := decide (kr.1 = 1)
    v := (adcBin w a m c).v }

/-- `SbcBin(a, m, c, w)` (R192). -/
def sbcBin (w : Width) (a m : Word) (c : Bool) : AluOut :=
  let s : Int := (a.toNat : Int) - (m.toNat : Int) - (1 - (c.toNat : Int))
  let r := BitVec.ofNat 16 (s % (2 ^ w.bits : Nat)).toNat
  { r := r
    c := decide (0 ≤ s)
    v := w.msb ((a ^^^ m) &&& (a ^^^ r)) }

/-- One place of R193: the borrow into the next digit, and the adjusted digit, from the digit difference. -/
def sbcDigit (s : Int) : Nat × Nat :=
  let b := if s < 0 then 1 else 0
  let d := (s % 16).toNat
  (b, if b = 1 ∨ 9 < d then (d + 10) % 16 else d)

/-- The loop of R193 over the first `n` digits: the borrow out of them, and their value. -/
def sbcDecLoop (a m : Word) (c : Bool) : Nat → Nat × Nat
  | 0 => (1 - c.toNat, 0)
  | n + 1 =>
    let br := sbcDecLoop a m c n
    let bd := sbcDigit ((nib a n : Int) - (nib m n : Int) - (br.1 : Int))
    (bd.1, br.2 + bd.2 * 16 ^ n)

/-- `SbcDec(a, m, c, w)` (R193, D13: notes/assumptions/12.md). -/
def sbcDec (w : Width) (a m : Word) (c : Bool) : AluOut :=
  let br := sbcDecLoop a m c (w.bits / 4)
  { r := BitVec.ofNat 16 br.2
    c := decide (br.1 = 0)
    v := (sbcBin w a m c).v }

/-- `Compare(reg, m, w)` (R199): N and Z of the wrapped difference, C of the unsigned comparison. -/
def State.compare (s : State) (w : Width) (reg m : Word) : State :=
  (s.putFlag .c (decide (m.toNat ≤ reg.toNat))).setNZ w (w.trunc (reg - m))

/-- `f` of ASL (R221): the result, and the state with C, N and Z written. -/
def asl (w : Width) (v : Word) (s : State) : Word × State :=
  let r := w.trunc (v <<< 1)
  (r, (s.putFlag .c (w.msb v)).setNZ w r)

/-- `f` of LSR (R222). -/
def lsr (w : Width) (v : Word) (s : State) : Word × State :=
  let r := v >>> 1
  (r, (s.putFlag .c (v.getLsbD 0)).setNZ w r)

/-- `f` of ROL (R223). -/
def rol (w : Width) (v : Word) (s : State) : Word × State :=
  let r := w.trunc (v <<< 1 ||| BitVec.ofNat 16 (s.flag .c).toNat)
  (r, (s.putFlag .c (w.msb v)).setNZ w r)

/-- `f` of ROR (R224). -/
def ror (w : Width) (v : Word) (s : State) : Word × State :=
  let r := v >>> 1 ||| BitVec.ofNat 16 (s.flag .c).toNat <<< (w.bits - 1)
  (r, (s.putFlag .c (v.getLsbD 0)).setNZ w r)

/-- `f` of INC (R225). -/
def incr (w : Width) (v : Word) (s : State) : Word × State :=
  let r := w.trunc (v + 1)
  (r, s.setNZ w r)

/-- `f` of DEC (R226). -/
def decr (w : Width) (v : Word) (s : State) : Word × State :=
  let r := w.trunc (v - 1)
  (r, s.setNZ w r)

/-- `f` of TRB (R231): Z of the test, and the operand with the bits of A cleared. -/
def trb (w : Width) (m : Word) (s : State) : Word × State :=
  let a := w.trunc s.a
  (m &&& ~~~a, s.putFlag .z (decide (a &&& m = 0)))

/-- `f` of TSB (R232): Z of the test, and the operand with the bits of A set. -/
def tsb (w : Width) (m : Word) (s : State) : Word × State :=
  let a := w.trunc s.a
  (m ||| a, s.putFlag .z (decide (a &&& m = 0)))

end Sys2Proof.Machine
end

