-- ==== Sys2Proof/Machine/Cycles.lean ====
section
/-! DEFINITION. The cycle_counter unit (30_encoding.md section 3): the value of a cycle expression, and what an
instruction adds. No register, flag or memory value depends on it. -/

namespace Sys2Proof.Machine

/-- The terms of R110 that the addressing mode or the branch decides. -/
structure Penalty where
  dl : Bool := false
  px : Bool := false
  t : Bool := false
  tx : Bool := false
  deriving DecidableEq, Repr

/-- The value of an expression; P and E are those at dispatch (R110). -/
def cycleValue (c : CycleExpr) (s : State) (pen : Penalty := {}) : Nat :=
  c.base + c.m16 * (!s.flag .m).toNat + c.x16 * (!s.flag .x).toNat + c.dl * pen.dl.toNat + c.px * pen.px.toNat +
    c.t * pen.t.toNat + c.tx * pen.tx.toNat + c.e0 * (!s.e).toNat

/-- `cycles += n`, modulo 2^64 (R37, D26: notes/assumptions/25.md). -/
def State.tick (s : State) (n : Nat) : State := { s with cycles := s.cycles + BitVec.ofNat 64 n }

/-- The cycles of the unknown-opcode path: 2, which the spec fixes (R107, D24, U3). -/
def unknownCost : Nat := 2

/-- The cycles an instruction adds: the row of its opcode in the parameter BaseCycles, at dispatch in `s` (R110, R111). -/
def cost (i : Instr) (s : State) (pen : Penalty := {}) : Nat := cycleValue (s.cfg.baseCycles.row i.opcode) s pen

end Sys2Proof.Machine
end

