-- ==== Sys2Proof/Machine/Ops.lean ====
section
/-! DEFINITION. The named operations over memory and registers: operand access (20_memory.md R67 to R69), the stack
(R71, R72), writing P with the mode invariants (10_state.md R39, R40), taking a trap or an interrupt (60_exceptions.md
R405) and returning from one (44_control.md R267). -/

namespace Sys2Proof.Machine

/-- What a step or a meaning answers. -/
abbrev Out := Host.Outcome State Fault Refusal

/-! ### The bus -/

/-- `read(addr)` (R61). -/
def State.busRead (s : State) (addr : Addr) : Byte := busReadAt s.cfg s.mem addr

/-- `write(addr, v)` (R61). -/
def State.busWrite (s : State) (addr : Addr) (v : Byte) : State :=
  { s with mem := busWriteAt s.cfg s.mem addr v }

/-- What answers at an address: two addresses whose slots have one home are one byte (R62). -/
def State.slot (s : State) (addr : Addr) : Slot := locate s.cfg.bus addr.toNat

/-- `MemRead(addr, 2)`: low byte first, the address incremented modulo 2^24 (R67). -/
def State.memRead16 (s : State) (addr : Addr) : Word :=
  word (s.busRead addr) (s.busRead (addr + 1))

/-- `MemRead(addr, 3)` (R67). -/
def State.memRead24 (s : State) (addr : Addr) : Addr :=
  long (s.busRead addr) (s.busRead (addr + 1)) (s.busRead (addr + 2))

/-- `MemWrite(addr, 2, v)`: low byte first (R67). -/
def State.memWrite16 (s : State) (addr : Addr) (v : Word) : State :=
  (s.busWrite addr (lo v)).busWrite (addr + 1) (hi v)

/-- `MemWrite(addr, 3, v)` (R67). -/
def State.memWrite24 (s : State) (addr : Addr) (v : Addr) : State :=
  (s.memWrite16 addr (longWord v)).busWrite (addr + 2) (longBank v)

/-- `MemReadB(bank, a16, 2)`: the offset incremented modulo 2^16 inside the bank (R68). -/
def State.memReadB16 (s : State) (bank : Byte) (a16 : Word) : Word :=
  busReadWordB s.cfg s.mem bank a16

/-- `MemReadB(bank, a16, 3)` (R68). -/
def State.memReadB24 (s : State) (bank : Byte) (a16 : Word) : Addr :=
  long (s.busRead (addr24 bank a16)) (s.busRead (addr24 bank (a16 + 1))) (s.busRead (addr24 bank (a16 + 2)))

/-- `MemWriteB(bank, a16, 2, v)` (R68). -/
def State.memWriteB16 (s : State) (bank : Byte) (a16 : Word) (v : Word) : State :=
  (s.busWrite (addr24 bank a16) (lo v)).busWrite (addr24 bank (a16 + 1)) (hi v)

/-- `MemWriteB(bank, a16, 3, v)` (R68). -/
def State.memWriteB24 (s : State) (bank : Byte) (a16 : Word) (v : Addr) : State :=
  (s.memWriteB16 bank a16 (longWord v)).busWrite (addr24 bank (a16 + 2)) (longBank v)

/-- The wrap class of an operand access (R69): linear in 24 bits, or inside bank 0. -/
inductive Wrap where
  | lin
  | b0
  deriving DecidableEq, Repr

/-- An effective-address record (R69). -/
structure Ea where
  addr : Addr
  wrap : Wrap
  deriving DecidableEq, Repr

/-- The offset of an address inside its bank. -/
def addrOffset (a : Addr) : Word := longWord a

/-- The bank of an address. -/
def addrBank (a : Addr) : Byte := longBank a

/-- `ReadOp(ea, w)`: an operand of width w, an 8-bit one zero-extended (R69). -/
def State.readOp (s : State) (ea : Ea) (w : Width) : Word :=
  match w, ea.wrap with
  | .w8, _ => (s.busRead ea.addr).setWidth 16
  | .w16, .lin => s.memRead16 ea.addr
  | .w16, .b0 => s.memReadB16 (addrBank ea.addr) (addrOffset ea.addr)

/-- `WriteOp(ea, w, v)`: the low w bits of v, low byte first (R69). -/
def State.writeOp (s : State) (ea : Ea) (w : Width) (v : Word) : State :=
  match w, ea.wrap with
  | .w8, _ => s.busWrite ea.addr (lo v)
  | .w16, .lin => s.memWrite16 ea.addr v
  | .w16, .b0 => s.memWriteB16 (addrBank ea.addr) (addrOffset ea.addr) v

/-! ### The accumulator at the active width -/

/-- `if w = 8 then A.l <- v else A <- v`: A.h is kept at width 8 (R20). -/
def State.setAcc (s : State) (w : Width) (v : Word) : State :=
  { s with a := match w with
                | .w8 => word (lo v) (hi s.a)
                | .w16 => v }

/-! ### The stack -/

/-- `SP.h <- 0x01` when E = 1 (R71). -/
def stackWrap (e : Bool) (sp : Word) : Word := if e then word (lo sp) 0x01 else sp

/-- `Push8(v)` (R71). -/
def State.push8 (s : State) (v : Byte) : State :=
  { s.busWrite (addr24 0x00 s.sp) v with sp := stackWrap s.e (s.sp - 1) }

/-- `Pull8()` (R71): the byte, and the state with SP moved. -/
def State.pull8 (s : State) : Byte × State :=
  let sp := stackWrap s.e (s.sp + 1)
  (s.busRead (addr24 0x00 sp), { s with sp := sp })

/-- `Push16(v)`: the high byte first (R72). -/
def State.push16 (s : State) (v : Word) : State := (s.push8 (hi v)).push8 (lo v)

/-- `Pull16()`: the low byte first (R72). -/
def State.pull16 (s : State) : Word × State :=
  let l := s.pull8
  let h := l.2.pull8
  (word l.1 h.1, h.2)

/-- Push w bits: a byte, or a word high byte first (R290). -/
def State.pushW (s : State) (w : Width) (v : Word) : State :=
  match w with
  | .w8 => s.push8 (lo v)
  | .w16 => s.push16 v

/-- Pull w bits, zero-extended (R298 to R300). -/
def State.pullW (s : State) (w : Width) : Word × State :=
  match w with
  | .w8 => (s.pull8.1.setWidth 16, s.pull8.2)
  | .w16 => s.pull16

/-! ### Writing P and E -/

/-- `EnforceModeInvariants()` (R39): first what E = 1 forces, then what P.X = 1 forces. -/
def State.enforceModes (s : State) : State :=
  let s1 := if s.e then { s with p := Flag.x.put true (Flag.m.put true s.p), sp := word (lo s.sp) 0x01 } else s
  if s1.flag .x then { s1 with x := word (lo s1.x) 0x00, y := word (lo s1.y) 0x00 } else s1

/-- `SetP(v)` (R40). -/
def State.setP (s : State) (v : Byte) : State := ({ s with p := v }).enforceModes

/-! ### Traps and interrupts -/

/-- The events that enter through TrapEntry (R405). ABORT is never raised (R404), reset is a host move (R440). -/
inductive TrapEvent where
  | brk
  | cop
  | irq
  | nmi
  deriving DecidableEq, Repr

/-- `Vector(event, E)`: the offset in bank 0 of the vector word (R403, D4: notes/assumptions/9.md). -/
def vector : TrapEvent → Bool → Word
  | .cop, false => 0xFFE4
  | .brk, false => 0xFFE6
  | .nmi, false => 0xFFEA
  | .irq, false => 0xFFEE
  | .cop, true => 0xFFF4
  | .nmi, true => 0xFFFA
  | .brk, true => 0xFFFE
  | .irq, true => 0xFFFE

/-- The copy of P that an entry pushes: in emulation mode a hardware interrupt clears bit 4 of the copy, BRK and COP
push P as it stands; in native mode every event does (R405, 90_conflicts.md C5). -/
def pushedP (ev : TrapEvent) (e : Bool) (p : Byte) : Byte :=
  match e, ev with
  | true, .irq => p &&& 0xEF
  | true, .nmi => p &&& 0xEF
  | _, _ => p

/-- The frame of an entry: PB in native mode only, then PC, high byte first, then P (R405). -/
def State.pushFrame (s : State) (ev : TrapEvent) : State :=
  if s.e then (s.push16 s.pc).push8 (pushedP ev true s.p)
  else ((s.push8 s.pb).push16 s.pc).push8 (pushedP ev false s.p)

/-- The cycles of an entry: a row of BaseCycles, that of the opcode for BRK and COP, the entry row for IRQ and NMI (R111,
R405, D20). -/
def State.entryCost (s : State) : TrapEvent → Nat
  | .brk => cost (.brk 0x00) s
  | .cop => cost (.cop 0x00) s
  | .irq => cycleValue s.cfg.baseCycles.entry s
  | .nmi => cycleValue s.cfg.baseCycles.entry s

/-- `TrapEntry(ev)` (R405). The vector is read after the frame is pushed. -/
def State.trapEntry (s : State) (ev : TrapEvent) : State :=
  let s1 := s.pushFrame ev
  let s2 := (s1.putFlag .i true).putFlag .d false
  { s2 with
    pb := 0x00
    pc := s2.memReadB16 0x00 (vector ev s.e)
    waiting := false
    cycles := s.cycles + BitVec.ofNat 64 (s.entryCost ev) }

/-- The pulls of RTI (R267): P, then PC, and PB in native mode only. The mode is E, which no pull changes. -/
def State.returnFromInterrupt (s : State) : State :=
  let f := s.pull8
  let s1 := f.2.setP f.1
  let r := s1.pull16
  let s2 := { r.2 with pc := r.1 }
  if s.e then s2 else { s2.pull8.2 with pb := s2.pull8.1 }

end Sys2Proof.Machine
end

