-- ==== Sys2Proof/Machine/Operands.lean ====
section
/-! DEFINITION. The addressing_mode_resolver (40_addressing.md): one function per addressing mode, from the operand that
Decode.lean read to an effective address with its penalty signals, or to a jump or branch target.
PC already stands at the next instruction (notes/assumptions/1.md). -/

namespace Sys2Proof.Machine

/-- What a data mode returns (R130): the effective address, the direct-page penalty and the page-crossing signal. -/
structure Resolved where
  ea : Ea
  dl : Bool
  px : Bool
  deriving DecidableEq, Repr

/-- The penalty signals of a data mode, for its cycle expression (R110). -/
def Resolved.penalty (r : Resolved) : Penalty := { dl := r.dl, px := r.px }

/-- The page-crossing signal of a 16-bit base and index (R155, D6: notes/assumptions/21.md). -/
def pageCross (base idx : Word) : Bool := decide (0x100 ≤ base.toNat % 0x100 + idx.toNat)

/-- The direct-page penalty: D.l is not zero (R156). -/
def State.dlPenalty (s : State) : Bool := decide (lo s.d ≠ 0)

/-- `DB:a` plus an index, in 24 bits: the index can carry into the bank (R133, D8: notes/assumptions/19.md). -/
def State.dbIndexed (s : State) (a idx : Word) : Addr := addr24 s.db a + idx.setWidth 24

/-! ### Data modes -/

/-- `a` (R132). -/
def State.absM (s : State) (a : Word) : Resolved :=
  { ea := { addr := addr24 s.db a, wrap := .lin }, dl := false, px := false }

/-- `a,X` (R133). -/
def State.absX (s : State) (a : Word) : Resolved :=
  { ea := { addr := s.dbIndexed a s.x, wrap := .lin }, dl := false, px := pageCross a s.x }

/-- `a,Y` (R134). -/
def State.absY (s : State) (a : Word) : Resolved :=
  { ea := { addr := s.dbIndexed a s.y, wrap := .lin }, dl := false, px := pageCross a s.y }

/-- `al` (R135). -/
def State.longM (_s : State) (a : Addr) : Resolved :=
  { ea := { addr := a, wrap := .lin }, dl := false, px := false }

/-- `al,X` (R136). -/
def State.longX (s : State) (a : Addr) : Resolved :=
  { ea := { addr := a + s.x.setWidth 24, wrap := .lin }, dl := false, px := false }

/-- The bank-0 offset `(D + o) mod 2^16` of a direct-page operand (R137). There is no page wrap in emulation mode
(D10: notes/assumptions/20.md). -/
def State.dpOffset (s : State) (o : Byte) : Word := s.d + o.setWidth 16

/-- `d` (R137). -/
def State.dp (s : State) (o : Byte) : Resolved :=
  { ea := { addr := addr24 0x00 (s.dpOffset o), wrap := .b0 }, dl := s.dlPenalty, px := false }

/-- `d,X` (R138). -/
def State.dpX (s : State) (o : Byte) : Resolved :=
  { ea := { addr := addr24 0x00 (s.dpOffset o + s.x), wrap := .b0 }, dl := s.dlPenalty, px := false }

/-- `d,Y` (R139). -/
def State.dpY (s : State) (o : Byte) : Resolved :=
  { ea := { addr := addr24 0x00 (s.dpOffset o + s.y), wrap := .b0 }, dl := s.dlPenalty, px := false }

/-- `(d)` (R140): a 16-bit pointer in bank 0, the data in bank DB. -/
def State.dpInd (s : State) (o : Byte) : Resolved :=
  { ea := { addr := addr24 s.db (s.memReadB16 0x00 (s.dpOffset o)), wrap := .lin }, dl := s.dlPenalty, px := false }

/-- `[d]` (R141): a 24-bit pointer in bank 0. -/
def State.dpIndLong (s : State) (o : Byte) : Resolved :=
  { ea := { addr := s.memReadB24 0x00 (s.dpOffset o), wrap := .lin }, dl := s.dlPenalty, px := false }

/-- `(d,X)` (R142). -/
def State.dpXInd (s : State) (o : Byte) : Resolved :=
  { ea := { addr := addr24 s.db (s.memReadB16 0x00 (s.dpOffset o + s.x)), wrap := .lin }
    dl := s.dlPenalty
    px := false }

/-- `(d),Y` (R143). -/
def State.dpIndY (s : State) (o : Byte) : Resolved :=
  let ptr := s.memReadB16 0x00 (s.dpOffset o)
  { ea := { addr := s.dbIndexed ptr s.y, wrap := .lin }, dl := s.dlPenalty, px := pageCross ptr s.y }

/-- `[d],Y` (R144). -/
def State.dpIndLongY (s : State) (o : Byte) : Resolved :=
  { ea := { addr := s.memReadB24 0x00 (s.dpOffset o) + s.y.setWidth 24, wrap := .lin }
    dl := s.dlPenalty
    px := false }

/-- The bank-0 offset `(SP + o) mod 2^16` of a stack-relative operand (R145, D12: notes/assumptions/19.md). -/
def State.srOffset (s : State) (o : Byte) : Word := s.sp + o.setWidth 16

/-- `d,S` (R145). -/
def State.sr (s : State) (o : Byte) : Resolved :=
  { ea := { addr := addr24 0x00 (s.srOffset o), wrap := .b0 }, dl := false, px := false }

/-- `(d,S),Y` (R146): no crossing cycle is charged. -/
def State.srIndY (s : State) (o : Byte) : Resolved :=
  { ea := { addr := s.dbIndexed (s.memReadB16 0x00 (s.srOffset o)) s.y, wrap := .lin }, dl := false, px := false }

/-! ### Jump targets -/

/-- The pointer of `(a)`: in bank 0 (R148). -/
def State.jumpInd (s : State) (a : Word) : Word := s.memReadB16 0x00 a

/-- The pointer of `[a]`: in bank 0 (R149, D36: notes/assumptions/19.md). -/
def State.jumpIndLong (s : State) (a : Word) : Addr := s.memReadB24 0x00 a

/-- The pointer of `(a,X)`: in bank PB (R150). -/
def State.jumpXInd (s : State) (a : Word) : Word := s.memReadB16 s.pb (a + s.x)

/-! ### Relative targets -/

/-- The target of an 8-bit displacement, from the address of the next instruction (R151). -/
def State.rel8 (s : State) (d : Byte) : Word := s.pc + d.signExtend 16

/-- Whether the target of an 8-bit displacement is in another page than the next instruction (R151, D7). -/
def State.rel8Cross (s : State) (d : Byte) : Bool := decide (hi (s.rel8 d) ≠ hi s.pc)

/-- The target of a 16-bit displacement (R152). -/
def State.rel16 (s : State) (d : Word) : Word := s.pc + d

end Sys2Proof.Machine
end

