-- ==== Sys2Proof/Machine/Forms.lean ====
section
/-! DEFINITION. The frames the instruction families share (41_load_store.md R170, 43_rmw.md R220): resolve, operate,
`cycles += the opcode's expression`. The width and the cycle terms are those at dispatch, in the state `s`. -/

namespace Sys2Proof.Machine

/-- End an instruction: `cycles += n` with the terms of the state at dispatch (R104, R110). -/
def finish (i : Instr) (s t : State) (pen : Penalty := {}) : Out := .next (t.tick (cost i s pen))

/-- An immediate operand of width w (R131, R170). -/
def immForm (i : Instr) (w : Width) (v : Word) (op : Word → State → State) (s : State) : Out :=
  finish i s (op (w.trunc v) s)

/-- A memory operand of width w (R170). -/
def readForm (i : Instr) (w : Width) (r : Resolved) (op : Word → State → State) (s : State) : Out :=
  finish i s (op (s.readOp r.ea w) s) r.penalty

/-- A store of width w (R174 to R177). -/
def storeForm (i : Instr) (w : Width) (r : Resolved) (v : Word) (s : State) : Out :=
  finish i s (s.writeOp r.ea w v) r.penalty

/-- The memory form of a read-modify-write (R220). -/
def rmwForm (i : Instr) (r : Resolved) (f : Width → Word → State → Word × State) (s : State) : Out :=
  let rs := f s.wA (s.readOp r.ea s.wA) s
  finish i s (rs.2.writeOp r.ea s.wA rs.1) r.penalty

/-- The accumulator form of a read-modify-write (R220): A.h is kept at width 8. -/
def accForm (i : Instr) (f : Width → Word → State → Word × State) (s : State) : Out :=
  let rs := f s.wA (s.wA.trunc s.a) s
  finish i s (rs.2.setAcc s.wA rs.1)

/-- Write X and set N, Z from it at width wX (R227, R229). -/
def State.setX (s : State) (w : Width) (v : Word) : State := { s with x := w.trunc v }.setNZ w (w.trunc v)

/-- Write Y and set N, Z from it at width wX (R228, R230). -/
def State.setY (s : State) (w : Width) (v : Word) : State := { s with y := w.trunc v }.setNZ w (w.trunc v)

end Sys2Proof.Machine
end

