-- ==== Sys2Proof/Machine/Alu.lean ====
section
/-! DEFINITION. Add, subtract, logic, compare and bit test (42_alu.md R194 to R204). -/

namespace Sys2Proof.Machine

/-- Write an adder's result: A at width wA, then C, V, N and Z (R194, R195). -/
def State.setSum (s : State) (w : Width) (o : AluOut) : State :=
  (((s.setAcc w o.r).putFlag .c o.c).putFlag .v o.v).setNZ w o.r

/-- ADC with its operand read (R194): decimal when P.D = 1. -/
def addA (m : Word) (s : State) : State :=
  let w := s.wA
  let a := w.trunc s.a
  s.setSum w (if s.flag .d then adcDec w a m (s.flag .c) else adcBin w a m (s.flag .c))

/-- SBC with its operand read (R195): decimal when P.D = 1. -/
def subA (m : Word) (s : State) : State :=
  let w := s.wA
  let a := w.trunc s.a
  s.setSum w (if s.flag .d then sbcDec w a m (s.flag .c) else sbcBin w a m (s.flag .c))

/-- The common form of AND, ORA and EOR (R204). -/
def logicA (op : Word → Word → Word) (m : Word) (s : State) : State :=
  let r := op (s.wA.trunc s.a) m
  (s.setAcc s.wA r).setNZ s.wA r

/-- AND with its operand read (R196). -/
def andA : Word → State → State := logicA (· &&& ·)

/-- ORA with its operand read (R197). -/
def oraA : Word → State → State := logicA (· ||| ·)

/-- EOR with its operand read (R198). -/
def eorA : Word → State → State := logicA (· ^^^ ·)

/-- CMP with its operand read (R199). -/
def cmpA (m : Word) (s : State) : State := s.compare s.wA (s.wA.trunc s.a) m

/-- CPX with its operand read (R200). -/
def cpX (m : Word) (s : State) : State := s.compare s.wX (s.wX.trunc s.x) m

/-- CPY with its operand read (R201). -/
def cpY (m : Word) (s : State) : State := s.compare s.wX (s.wX.trunc s.y) m

/-- BIT immediate (R202): Z only. -/
def bitImmA (m : Word) (s : State) : State := s.putFlag .z (decide (s.wA.trunc s.a &&& m = 0))

/-- BIT with a memory operand (R202): Z, and N and V from the operand's top two bits (D28: notes/assumptions/34.md). -/
def bitMemA (m : Word) (s : State) : State :=
  ((bitImmA m s).putFlag .n (s.wA.msb m)).putFlag .v (m.getLsbD (s.wA.bits - 2))

/-- ADC (R194), opcode 61, mode (d,X) (R142). -/
def execAdcDpXInd (o : Byte) (s : State) : Out := readForm (.adcDpXInd o) s.wA (s.dpXInd o) addA s

/-- ADC (R194), opcode 63, mode d,S (R145). -/
def execAdcSr (o : Byte) (s : State) : Out := readForm (.adcSr o) s.wA (s.sr o) addA s

/-- ADC (R194), opcode 65, mode d (R137). -/
def execAdcDp (o : Byte) (s : State) : Out := readForm (.adcDp o) s.wA (s.dp o) addA s

/-- ADC (R194), opcode 67, mode [d] (R141). -/
def execAdcDpIndLong (o : Byte) (s : State) : Out := readForm (.adcDpIndLong o) s.wA (s.dpIndLong o) addA s

/-- ADC (R194), opcode 69, mode #m (R131). -/
def execAdcImm (v : Word) (s : State) : Out := immForm (.adcImm v) s.wA v addA s

/-- ADC (R194), opcode 6D, mode a (R132). -/
def execAdcAbs (a : Word) (s : State) : Out := readForm (.adcAbs a) s.wA (s.absM a) addA s

/-- ADC (R194), opcode 6F, mode al (R135). -/
def execAdcLong (a : Addr) (s : State) : Out := readForm (.adcLong a) s.wA (s.longM a) addA s

/-- ADC (R194), opcode 71, mode (d),Y (R143). -/
def execAdcDpIndY (o : Byte) (s : State) : Out := readForm (.adcDpIndY o) s.wA (s.dpIndY o) addA s

/-- ADC (R194), opcode 72, mode (d) (R140). -/
def execAdcDpInd (o : Byte) (s : State) : Out := readForm (.adcDpInd o) s.wA (s.dpInd o) addA s

/-- ADC (R194), opcode 73, mode (d,S),Y (R146). -/
def execAdcSrIndY (o : Byte) (s : State) : Out := readForm (.adcSrIndY o) s.wA (s.srIndY o) addA s

/-- ADC (R194), opcode 75, mode d,X (R138). -/
def execAdcDpX (o : Byte) (s : State) : Out := readForm (.adcDpX o) s.wA (s.dpX o) addA s

/-- ADC (R194), opcode 77, mode [d],Y (R144). -/
def execAdcDpIndLongY (o : Byte) (s : State) : Out := readForm (.adcDpIndLongY o) s.wA (s.dpIndLongY o) addA s

/-- ADC (R194), opcode 79, mode a,Y (R134). -/
def execAdcAbsY (a : Word) (s : State) : Out := readForm (.adcAbsY a) s.wA (s.absY a) addA s

/-- ADC (R194), opcode 7D, mode a,X (R133). -/
def execAdcAbsX (a : Word) (s : State) : Out := readForm (.adcAbsX a) s.wA (s.absX a) addA s

/-- ADC (R194), opcode 7F, mode al,X (R136). -/
def execAdcLongX (a : Addr) (s : State) : Out := readForm (.adcLongX a) s.wA (s.longX a) addA s

/-- SBC (R195), opcode E1, mode (d,X) (R142). -/
def execSbcDpXInd (o : Byte) (s : State) : Out := readForm (.sbcDpXInd o) s.wA (s.dpXInd o) subA s

/-- SBC (R195), opcode E3, mode d,S (R145). -/
def execSbcSr (o : Byte) (s : State) : Out := readForm (.sbcSr o) s.wA (s.sr o) subA s

/-- SBC (R195), opcode E5, mode d (R137). -/
def execSbcDp (o : Byte) (s : State) : Out := readForm (.sbcDp o) s.wA (s.dp o) subA s

/-- SBC (R195), opcode E7, mode [d] (R141). -/
def execSbcDpIndLong (o : Byte) (s : State) : Out := readForm (.sbcDpIndLong o) s.wA (s.dpIndLong o) subA s

/-- SBC (R195), opcode E9, mode #m (R131). -/
def execSbcImm (v : Word) (s : State) : Out := immForm (.sbcImm v) s.wA v subA s

/-- SBC (R195), opcode ED, mode a (R132). -/
def execSbcAbs (a : Word) (s : State) : Out := readForm (.sbcAbs a) s.wA (s.absM a) subA s

/-- SBC (R195), opcode EF, mode al (R135). -/
def execSbcLong (a : Addr) (s : State) : Out := readForm (.sbcLong a) s.wA (s.longM a) subA s

/-- SBC (R195), opcode F1, mode (d),Y (R143). -/
def execSbcDpIndY (o : Byte) (s : State) : Out := readForm (.sbcDpIndY o) s.wA (s.dpIndY o) subA s

/-- SBC (R195), opcode F2, mode (d) (R140). -/
def execSbcDpInd (o : Byte) (s : State) : Out := readForm (.sbcDpInd o) s.wA (s.dpInd o) subA s

/-- SBC (R195), opcode F3, mode (d,S),Y (R146). -/
def execSbcSrIndY (o : Byte) (s : State) : Out := readForm (.sbcSrIndY o) s.wA (s.srIndY o) subA s

/-- SBC (R195), opcode F5, mode d,X (R138). -/
def execSbcDpX (o : Byte) (s : State) : Out := readForm (.sbcDpX o) s.wA (s.dpX o) subA s

/-- SBC (R195), opcode F7, mode [d],Y (R144). -/
def execSbcDpIndLongY (o : Byte) (s : State) : Out := readForm (.sbcDpIndLongY o) s.wA (s.dpIndLongY o) subA s

/-- SBC (R195), opcode F9, mode a,Y (R134). -/
def execSbcAbsY (a : Word) (s : State) : Out := readForm (.sbcAbsY a) s.wA (s.absY a) subA s

/-- SBC (R195), opcode FD, mode a,X (R133). -/
def execSbcAbsX (a : Word) (s : State) : Out := readForm (.sbcAbsX a) s.wA (s.absX a) subA s

/-- SBC (R195), opcode FF, mode al,X (R136). -/
def execSbcLongX (a : Addr) (s : State) : Out := readForm (.sbcLongX a) s.wA (s.longX a) subA s

/-- AND (R196), opcode 21, mode (d,X) (R142). -/
def execAndDpXInd (o : Byte) (s : State) : Out := readForm (.andDpXInd o) s.wA (s.dpXInd o) andA s

/-- AND (R196), opcode 23, mode d,S (R145). -/
def execAndSr (o : Byte) (s : State) : Out := readForm (.andSr o) s.wA (s.sr o) andA s

/-- AND (R196), opcode 25, mode d (R137). -/
def execAndDp (o : Byte) (s : State) : Out := readForm (.andDp o) s.wA (s.dp o) andA s

/-- AND (R196), opcode 27, mode [d] (R141). -/
def execAndDpIndLong (o : Byte) (s : State) : Out := readForm (.andDpIndLong o) s.wA (s.dpIndLong o) andA s

/-- AND (R196), opcode 29, mode #m (R131). -/
def execAndImm (v : Word) (s : State) : Out := immForm (.andImm v) s.wA v andA s

/-- AND (R196), opcode 2D, mode a (R132). -/
def execAndAbs (a : Word) (s : State) : Out := readForm (.andAbs a) s.wA (s.absM a) andA s

/-- AND (R196), opcode 2F, mode al (R135). -/
def execAndLong (a : Addr) (s : State) : Out := readForm (.andLong a) s.wA (s.longM a) andA s

/-- AND (R196), opcode 31, mode (d),Y (R143). -/
def execAndDpIndY (o : Byte) (s : State) : Out := readForm (.andDpIndY o) s.wA (s.dpIndY o) andA s

/-- AND (R196), opcode 32, mode (d) (R140). -/
def execAndDpInd (o : Byte) (s : State) : Out := readForm (.andDpInd o) s.wA (s.dpInd o) andA s

/-- AND (R196), opcode 33, mode (d,S),Y (R146). -/
def execAndSrIndY (o : Byte) (s : State) : Out := readForm (.andSrIndY o) s.wA (s.srIndY o) andA s

/-- AND (R196), opcode 35, mode d,X (R138). -/
def execAndDpX (o : Byte) (s : State) : Out := readForm (.andDpX o) s.wA (s.dpX o) andA s

/-- AND (R196), opcode 37, mode [d],Y (R144). -/
def execAndDpIndLongY (o : Byte) (s : State) : Out := readForm (.andDpIndLongY o) s.wA (s.dpIndLongY o) andA s

/-- AND (R196), opcode 39, mode a,Y (R134). -/
def execAndAbsY (a : Word) (s : State) : Out := readForm (.andAbsY a) s.wA (s.absY a) andA s

/-- AND (R196), opcode 3D, mode a,X (R133). -/
def execAndAbsX (a : Word) (s : State) : Out := readForm (.andAbsX a) s.wA (s.absX a) andA s

/-- AND (R196), opcode 3F, mode al,X (R136). -/
def execAndLongX (a : Addr) (s : State) : Out := readForm (.andLongX a) s.wA (s.longX a) andA s

/-- ORA (R197), opcode 01, mode (d,X) (R142). -/
def execOraDpXInd (o : Byte) (s : State) : Out := readForm (.oraDpXInd o) s.wA (s.dpXInd o) oraA s

/-- ORA (R197), opcode 03, mode d,S (R145). -/
def execOraSr (o : Byte) (s : State) : Out := readForm (.oraSr o) s.wA (s.sr o) oraA s

/-- ORA (R197), opcode 05, mode d (R137). -/
def execOraDp (o : Byte) (s : State) : Out := readForm (.oraDp o) s.wA (s.dp o) oraA s

/-- ORA (R197), opcode 07, mode [d] (R141). -/
def execOraDpIndLong (o : Byte) (s : State) : Out := readForm (.oraDpIndLong o) s.wA (s.dpIndLong o) oraA s

/-- ORA (R197), opcode 09, mode #m (R131). -/
def execOraImm (v : Word) (s : State) : Out := immForm (.oraImm v) s.wA v oraA s

/-- ORA (R197), opcode 0D, mode a (R132). -/
def execOraAbs (a : Word) (s : State) : Out := readForm (.oraAbs a) s.wA (s.absM a) oraA s

/-- ORA (R197), opcode 0F, mode al (R135). -/
def execOraLong (a : Addr) (s : State) : Out := readForm (.oraLong a) s.wA (s.longM a) oraA s

/-- ORA (R197), opcode 11, mode (d),Y (R143). -/
def execOraDpIndY (o : Byte) (s : State) : Out := readForm (.oraDpIndY o) s.wA (s.dpIndY o) oraA s

/-- ORA (R197), opcode 12, mode (d) (R140). -/
def execOraDpInd (o : Byte) (s : State) : Out := readForm (.oraDpInd o) s.wA (s.dpInd o) oraA s

/-- ORA (R197), opcode 13, mode (d,S),Y (R146). -/
def execOraSrIndY (o : Byte) (s : State) : Out := readForm (.oraSrIndY o) s.wA (s.srIndY o) oraA s

/-- ORA (R197), opcode 15, mode d,X (R138). -/
def execOraDpX (o : Byte) (s : State) : Out := readForm (.oraDpX o) s.wA (s.dpX o) oraA s

/-- ORA (R197), opcode 17, mode [d],Y (R144). -/
def execOraDpIndLongY (o : Byte) (s : State) : Out := readForm (.oraDpIndLongY o) s.wA (s.dpIndLongY o) oraA s

/-- ORA (R197), opcode 19, mode a,Y (R134). -/
def execOraAbsY (a : Word) (s : State) : Out := readForm (.oraAbsY a) s.wA (s.absY a) oraA s

/-- ORA (R197), opcode 1D, mode a,X (R133). -/
def execOraAbsX (a : Word) (s : State) : Out := readForm (.oraAbsX a) s.wA (s.absX a) oraA s

/-- ORA (R197), opcode 1F, mode al,X (R136). -/
def execOraLongX (a : Addr) (s : State) : Out := readForm (.oraLongX a) s.wA (s.longX a) oraA s

/-- EOR (R198), opcode 41, mode (d,X) (R142). -/
def execEorDpXInd (o : Byte) (s : State) : Out := readForm (.eorDpXInd o) s.wA (s.dpXInd o) eorA s

/-- EOR (R198), opcode 43, mode d,S (R145). -/
def execEorSr (o : Byte) (s : State) : Out := readForm (.eorSr o) s.wA (s.sr o) eorA s

/-- EOR (R198), opcode 45, mode d (R137). -/
def execEorDp (o : Byte) (s : State) : Out := readForm (.eorDp o) s.wA (s.dp o) eorA s

/-- EOR (R198), opcode 47, mode [d] (R141). -/
def execEorDpIndLong (o : Byte) (s : State) : Out := readForm (.eorDpIndLong o) s.wA (s.dpIndLong o) eorA s

/-- EOR (R198), opcode 49, mode #m (R131). -/
def execEorImm (v : Word) (s : State) : Out := immForm (.eorImm v) s.wA v eorA s

/-- EOR (R198), opcode 4D, mode a (R132). -/
def execEorAbs (a : Word) (s : State) : Out := readForm (.eorAbs a) s.wA (s.absM a) eorA s

/-- EOR (R198), opcode 4F, mode al (R135). -/
def execEorLong (a : Addr) (s : State) : Out := readForm (.eorLong a) s.wA (s.longM a) eorA s

/-- EOR (R198), opcode 51, mode (d),Y (R143). -/
def execEorDpIndY (o : Byte) (s : State) : Out := readForm (.eorDpIndY o) s.wA (s.dpIndY o) eorA s

/-- EOR (R198), opcode 52, mode (d) (R140). -/
def execEorDpInd (o : Byte) (s : State) : Out := readForm (.eorDpInd o) s.wA (s.dpInd o) eorA s

/-- EOR (R198), opcode 53, mode (d,S),Y (R146). -/
def execEorSrIndY (o : Byte) (s : State) : Out := readForm (.eorSrIndY o) s.wA (s.srIndY o) eorA s

/-- EOR (R198), opcode 55, mode d,X (R138). -/
def execEorDpX (o : Byte) (s : State) : Out := readForm (.eorDpX o) s.wA (s.dpX o) eorA s

/-- EOR (R198), opcode 57, mode [d],Y (R144). -/
def execEorDpIndLongY (o : Byte) (s : State) : Out := readForm (.eorDpIndLongY o) s.wA (s.dpIndLongY o) eorA s

/-- EOR (R198), opcode 59, mode a,Y (R134). -/
def execEorAbsY (a : Word) (s : State) : Out := readForm (.eorAbsY a) s.wA (s.absY a) eorA s

/-- EOR (R198), opcode 5D, mode a,X (R133). -/
def execEorAbsX (a : Word) (s : State) : Out := readForm (.eorAbsX a) s.wA (s.absX a) eorA s

/-- EOR (R198), opcode 5F, mode al,X (R136). -/
def execEorLongX (a : Addr) (s : State) : Out := readForm (.eorLongX a) s.wA (s.longX a) eorA s

/-- CMP (R199), opcode C1, mode (d,X) (R142). -/
def execCmpDpXInd (o : Byte) (s : State) : Out := readForm (.cmpDpXInd o) s.wA (s.dpXInd o) cmpA s

/-- CMP (R199), opcode C3, mode d,S (R145). -/
def execCmpSr (o : Byte) (s : State) : Out := readForm (.cmpSr o) s.wA (s.sr o) cmpA s

/-- CMP (R199), opcode C5, mode d (R137). -/
def execCmpDp (o : Byte) (s : State) : Out := readForm (.cmpDp o) s.wA (s.dp o) cmpA s

/-- CMP (R199), opcode C7, mode [d] (R141). -/
def execCmpDpIndLong (o : Byte) (s : State) : Out := readForm (.cmpDpIndLong o) s.wA (s.dpIndLong o) cmpA s

/-- CMP (R199), opcode C9, mode #m (R131). -/
def execCmpImm (v : Word) (s : State) : Out := immForm (.cmpImm v) s.wA v cmpA s

/-- CMP (R199), opcode CD, mode a (R132). -/
def execCmpAbs (a : Word) (s : State) : Out := readForm (.cmpAbs a) s.wA (s.absM a) cmpA s

/-- CMP (R199), opcode CF, mode al (R135). -/
def execCmpLong (a : Addr) (s : State) : Out := readForm (.cmpLong a) s.wA (s.longM a) cmpA s

/-- CMP (R199), opcode D1, mode (d),Y (R143). -/
def execCmpDpIndY (o : Byte) (s : State) : Out := readForm (.cmpDpIndY o) s.wA (s.dpIndY o) cmpA s

/-- CMP (R199), opcode D2, mode (d) (R140). -/
def execCmpDpInd (o : Byte) (s : State) : Out := readForm (.cmpDpInd o) s.wA (s.dpInd o) cmpA s

/-- CMP (R199), opcode D3, mode (d,S),Y (R146). -/
def execCmpSrIndY (o : Byte) (s : State) : Out := readForm (.cmpSrIndY o) s.wA (s.srIndY o) cmpA s

/-- CMP (R199), opcode D5, mode d,X (R138). -/
def execCmpDpX (o : Byte) (s : State) : Out := readForm (.cmpDpX o) s.wA (s.dpX o) cmpA s

/-- CMP (R199), opcode D7, mode [d],Y (R144). -/
def execCmpDpIndLongY (o : Byte) (s : State) : Out := readForm (.cmpDpIndLongY o) s.wA (s.dpIndLongY o) cmpA s

/-- CMP (R199), opcode D9, mode a,Y (R134). -/
def execCmpAbsY (a : Word) (s : State) : Out := readForm (.cmpAbsY a) s.wA (s.absY a) cmpA s

/-- CMP (R199), opcode DD, mode a,X (R133). -/
def execCmpAbsX (a : Word) (s : State) : Out := readForm (.cmpAbsX a) s.wA (s.absX a) cmpA s

/-- CMP (R199), opcode DF, mode al,X (R136). -/
def execCmpLongX (a : Addr) (s : State) : Out := readForm (.cmpLongX a) s.wA (s.longX a) cmpA s

/-- CPX (R200), opcode E0, mode #x (R131). -/
def execCpxImm (v : Word) (s : State) : Out := immForm (.cpxImm v) s.wX v cpX s

/-- CPX (R200), opcode E4, mode d (R137). -/
def execCpxDp (o : Byte) (s : State) : Out := readForm (.cpxDp o) s.wX (s.dp o) cpX s

/-- CPX (R200), opcode EC, mode a (R132). -/
def execCpxAbs (a : Word) (s : State) : Out := readForm (.cpxAbs a) s.wX (s.absM a) cpX s

/-- CPY (R201), opcode C0, mode #x (R131). -/
def execCpyImm (v : Word) (s : State) : Out := immForm (.cpyImm v) s.wX v cpY s

/-- CPY (R201), opcode C4, mode d (R137). -/
def execCpyDp (o : Byte) (s : State) : Out := readForm (.cpyDp o) s.wX (s.dp o) cpY s

/-- CPY (R201), opcode CC, mode a (R132). -/
def execCpyAbs (a : Word) (s : State) : Out := readForm (.cpyAbs a) s.wX (s.absM a) cpY s

/-- BIT (R202), opcode 24, mode d (R137). -/
def execBitDp (o : Byte) (s : State) : Out := readForm (.bitDp o) s.wA (s.dp o) bitMemA s

/-- BIT (R202), opcode 2C, mode a (R132). -/
def execBitAbs (a : Word) (s : State) : Out := readForm (.bitAbs a) s.wA (s.absM a) bitMemA s

/-- BIT (R202), opcode 34, mode d,X (R138). -/
def execBitDpX (o : Byte) (s : State) : Out := readForm (.bitDpX o) s.wA (s.dpX o) bitMemA s

/-- BIT (R202), opcode 3C, mode a,X (R133). -/
def execBitAbsX (a : Word) (s : State) : Out := readForm (.bitAbsX a) s.wA (s.absX a) bitMemA s

/-- BIT (R202), opcode 89, mode #m (R131). -/
def execBitImm (v : Word) (s : State) : Out := immForm (.bitImm v) s.wA v bitImmA s

end Sys2Proof.Machine
end

