-- ==== Sys2Proof/Machine/BlockMisc.lean ====
section
/-! DEFINITION. Block moves, NOP, WDM, WAI and STP (47_block_misc.md R360 to R366). -/

namespace Sys2Proof.Machine

/-- One iteration of a block move (R366, D23: notes/assumptions/22.md): one byte from src:X to dst:Y, X and Y stepped by
`step` at width wX, A decremented in all 16 bits, DB set to dst, and PC put back on the opcode while A is not 0xFFFF. -/
def State.blockMove (s : State) (step : Word) (dst src : Byte) : State :=
  let s1 := s.busWrite (addr24 dst s.y) (s.busRead (addr24 src s.x))
  let a := s.a - 1
  { s1 with
    x := s.wX.trunc (s.wX.trunc s.x + step)
    y := s.wX.trunc (s.wX.trunc s.y + step)
    a := a
    db := dst
    pc := if a = 0xFFFF then s.pc else s.pc - 3 }

/-- MVN (R360), opcode 54, mode mv (R154). -/
def execMvn (dst : Byte) (src : Byte) (s : State) : Out := finish (.mvn dst src) s (s.blockMove 1 dst src)

/-- MVP (R361), opcode 44, mode mv (R154). -/
def execMvp (dst : Byte) (src : Byte) (s : State) : Out := finish (.mvp dst src) s (s.blockMove 0xFFFF dst src)

/-- NOP (R362), opcode EA. -/
def execNop (s : State) : Out := finish .nop s s

/-- WDM (R363), opcode 42, mode #8 (R131). -/
def execWdm (o : Byte) (s : State) : Out := finish (.wdm o) s s

/-- WAI (R364), opcode CB. -/
def execWai (s : State) : Out := finish .wai s ({ s with waiting := true })

/-- STP (R365), opcode DB. -/
def execStp (s : State) : Out := finish .stp s ({ s with stopped := true })

end Sys2Proof.Machine
end

