-- ==== Sys2Proof/Machine/Control.lean ====
section
/-! DEFINITION. Branches, jumps, calls, returns and software interrupts (44_control.md R250 to R270). -/

namespace Sys2Proof.Machine

/-- The common form of the nine 8-bit-relative branches (R250). -/
def branchForm (i : Instr) (cond : Bool) (d : Byte) (s : State) : Out :=
  if cond then finish i s { s with pc := s.rel8 d } { t := true, tx := s.rel8Cross d } else finish i s s

/-- `PC <- t[15:0]; PB <- t[23:16]` (R262, R264). -/
def State.jumpLong (s : State) (t : Addr) : State := { s with pc := longWord t, pb := longBank t }

/-- JSR (R263): push the address of the call's last byte, then go to the target, which is read before the push. -/
def State.callShort (s : State) (t : Word) : State := { s.push16 (s.pc - 1) with pc := t }

/-- JSL (R264): push PB and the address of the call's last byte, then go to the target. -/
def State.callLong (s : State) (t : Addr) : State := ((s.push8 s.pb).push16 (s.pc - 1)).jumpLong t

/-- RTS (R265). -/
def State.returnShort (s : State) : State :=
  let r := s.pull16
  { r.2 with pc := r.1 + 1 }

/-- RTL (R266): the increment does not carry into PB. -/
def State.returnLong (s : State) : State :=
  let s1 := s.returnShort
  { s1.pull8.2 with pb := s1.pull8.1 }

/-- BCC (R251), opcode 90, mode r (R151). -/
def execBcc (d : Byte) (s : State) : Out := branchForm (.bcc d) (!s.flag .c) d s

/-- BCS (R252), opcode B0, mode r (R151). -/
def execBcs (d : Byte) (s : State) : Out := branchForm (.bcs d) (s.flag .c) d s

/-- BEQ (R253), opcode F0, mode r (R151). -/
def execBeq (d : Byte) (s : State) : Out := branchForm (.beq d) (s.flag .z) d s

/-- BMI (R254), opcode 30, mode r (R151). -/
def execBmi (d : Byte) (s : State) : Out := branchForm (.bmi d) (s.flag .n) d s

/-- BNE (R255), opcode D0, mode r (R151). -/
def execBne (d : Byte) (s : State) : Out := branchForm (.bne d) (!s.flag .z) d s

/-- BPL (R256), opcode 10, mode r (R151). -/
def execBpl (d : Byte) (s : State) : Out := branchForm (.bpl d) (!s.flag .n) d s

/-- BVC (R257), opcode 50, mode r (R151). -/
def execBvc (d : Byte) (s : State) : Out := branchForm (.bvc d) (!s.flag .v) d s

/-- BVS (R258), opcode 70, mode r (R151). -/
def execBvs (d : Byte) (s : State) : Out := branchForm (.bvs d) (s.flag .v) d s

/-- BRA (R259), opcode 80, mode r (R151). -/
def execBra (d : Byte) (s : State) : Out := branchForm (.bra d) true d s

/-- BRL (R260), opcode 82, mode rl (R152). -/
def execBrl (d : Word) (s : State) : Out := finish (.brl d) s ({ s with pc := s.rel16 d })

/-- JMP (R261), opcode 4C, mode a (R147). -/
def execJmpAbs (a : Word) (s : State) : Out := finish (.jmpAbs a) s ({ s with pc := a })

/-- JMP (R261), opcode 6C, mode (a) (R148). -/
def execJmpAbsInd (a : Word) (s : State) : Out := finish (.jmpAbsInd a) s ({ s with pc := s.jumpInd a })

/-- JMP (R261), opcode 7C, mode (a,X) (R150). -/
def execJmpAbsXInd (a : Word) (s : State) : Out := finish (.jmpAbsXInd a) s ({ s with pc := s.jumpXInd a })

/-- JML (R262), opcode 5C, mode al (R157). -/
def execJmlLong (a : Addr) (s : State) : Out := finish (.jmlLong a) s (s.jumpLong a)

/-- JML (R262), opcode DC, mode [a] (R149). -/
def execJmlAbsIndLong (a : Word) (s : State) : Out := finish (.jmlAbsIndLong a) s (s.jumpLong (s.jumpIndLong a))

/-- JSR (R263), opcode 20, mode a (R147). -/
def execJsrAbs (a : Word) (s : State) : Out := finish (.jsrAbs a) s (s.callShort a)

/-- JSR (R263), opcode FC, mode (a,X) (R150). -/
def execJsrAbsXInd (a : Word) (s : State) : Out := finish (.jsrAbsXInd a) s (s.callShort (s.jumpXInd a))

/-- JSL (R264), opcode 22, mode al (R157). -/
def execJsl (a : Addr) (s : State) : Out := finish (.jsl a) s (s.callLong a)

/-- RTS (R265), opcode 60. -/
def execRts (s : State) : Out := finish .rts s (s.returnShort)

/-- RTL (R266), opcode 6B. -/
def execRtl (s : State) : Out := finish .rtl s (s.returnLong)

/-- RTI (R267), opcode 40. -/
def execRti (s : State) : Out := finish .rti s (s.returnFromInterrupt)

/-- BRK (R268), opcode 00, mode #8 (R131). -/
def execBrk (_sig : Byte) (s : State) : Out := .next (s.trapEntry .brk)

/-- COP (R269), opcode 02, mode #8 (R131). -/
def execCop (_sig : Byte) (s : State) : Out := .next (s.trapEntry .cop)

end Sys2Proof.Machine
end

