-- ==== Sys2Proof/Machine/FlagsTransfers.lean ====
section
/-! DEFINITION. Status-flag instructions, register transfers, XBA and XCE (46_flags_transfers.md R320 to R344). -/

namespace Sys2Proof.Machine

/-- A transfer into A of a 16-bit register, whatever P.M is (R338, R340). -/
def State.setAcc16 (s : State) (v : Word) : State := { s with a := v }.setNZ .w16 v

/-- A transfer into A at width wA (R331, R332): A.h is kept at width 8. -/
def State.transferA (s : State) (v : Word) : State := (s.setAcc s.wA (s.wA.trunc v)).setNZ s.wA (s.wA.trunc v)

/-- TXS (R336): in emulation mode SP.h is 0x01. -/
def State.transferSP (s : State) (v : Word) : State := { s with sp := stackWrap s.e v }

/-- XBA (R341): N and Z from the new low byte, at width 8. -/
def State.swapAcc (s : State) : State :=
  { s with a := word (hi s.a) (lo s.a) }.setNZ .w8 ((hi s.a).setWidth 16)

/-- XCE (R344). -/
def State.exchangeCE (s : State) : State :=
  ({ s.putFlag .c s.e with e := s.flag .c }).enforceModes

/-- REP (R320), opcode C2, mode #8 (R131). -/
def execRep (mask : Byte) (s : State) : Out := finish (.rep mask) s (s.setP (s.p &&& ~~~mask))

/-- SEP (R321), opcode E2, mode #8 (R131). -/
def execSep (mask : Byte) (s : State) : Out := finish (.sep mask) s (s.setP (s.p ||| mask))

/-- CLC (R322), opcode 18. -/
def execClc (s : State) : Out := finish .clc s (s.putFlag .c false)

/-- CLD (R323), opcode D8. -/
def execCld (s : State) : Out := finish .cld s (s.putFlag .d false)

/-- CLI (R324), opcode 58. -/
def execCli (s : State) : Out := finish .cli s (s.putFlag .i false)

/-- CLV (R325), opcode B8. -/
def execClv (s : State) : Out := finish .clv s (s.putFlag .v false)

/-- SEC (R326), opcode 38. -/
def execSec (s : State) : Out := finish .sec s (s.putFlag .c true)

/-- SED (R327), opcode F8. -/
def execSed (s : State) : Out := finish .sed s (s.putFlag .d true)

/-- SEI (R328), opcode 78. -/
def execSei (s : State) : Out := finish .sei s (s.putFlag .i true)

/-- TAX (R329), opcode AA. -/
def execTax (s : State) : Out := finish .tax s (s.setX s.wX s.a)

/-- TAY (R330), opcode A8. -/
def execTay (s : State) : Out := finish .tay s (s.setY s.wX s.a)

/-- TXA (R331), opcode 8A. -/
def execTxa (s : State) : Out := finish .txa s (s.transferA s.x)

/-- TYA (R332), opcode 98. -/
def execTya (s : State) : Out := finish .tya s (s.transferA s.y)

/-- TXY (R333), opcode 9B. -/
def execTxy (s : State) : Out := finish .txy s (s.setY s.wX s.x)

/-- TYX (R334), opcode BB. -/
def execTyx (s : State) : Out := finish .tyx s (s.setX s.wX s.y)

/-- TSX (R335), opcode BA. -/
def execTsx (s : State) : Out := finish .tsx s (s.setX s.wX s.sp)

/-- TXS (R336), opcode 9A. -/
def execTxs (s : State) : Out := finish .txs s (s.transferSP s.x)

/-- TCD (R337), opcode 5B. -/
def execTcd (s : State) : Out := finish .tcd s ({ s with d := s.a }.setNZ .w16 s.a)

/-- TDC (R338), opcode 7B. -/
def execTdc (s : State) : Out := finish .tdc s (s.setAcc16 s.d)

/-- TCS (R339), opcode 1B. -/
def execTcs (s : State) : Out := finish .tcs s (s.transferSP s.a)

/-- TSC (R340), opcode 3B. -/
def execTsc (s : State) : Out := finish .tsc s (s.setAcc16 s.sp)

/-- XBA (R341), opcode EB. -/
def execXba (s : State) : Out := finish .xba s (s.swapAcc)

/-- XCE (R344), opcode FB. -/
def execXce (s : State) : Out := finish .xce s (s.exchangeCE)

end Sys2Proof.Machine
end

