-- ==== Sys2Proof/Machine/LoadStore.lean ====
section
/-! DEFINITION. Loads and stores (41_load_store.md R171 to R177). -/

namespace Sys2Proof.Machine

/-- LDA with its operand read (R171): A.h is kept at width 8. -/
def loadA (v : Word) (s : State) : State := (s.setAcc s.wA v).setNZ s.wA v

/-- LDX with its operand read (R172). The operand is zero-extended already. -/
def loadX (v : Word) (s : State) : State := { s with x := v }.setNZ s.wX v

/-- LDY with its operand read (R173). -/
def loadY (v : Word) (s : State) : State := { s with y := v }.setNZ s.wX v

/-- LDA (R171), opcode A1, mode (d,X) (R142). -/
def execLdaDpXInd (o : Byte) (s : State) : Out := readForm (.ldaDpXInd o) s.wA (s.dpXInd o) loadA s

/-- LDA (R171), opcode A3, mode d,S (R145). -/
def execLdaSr (o : Byte) (s : State) : Out := readForm (.ldaSr o) s.wA (s.sr o) loadA s

/-- LDA (R171), opcode A5, mode d (R137). -/
def execLdaDp (o : Byte) (s : State) : Out := readForm (.ldaDp o) s.wA (s.dp o) loadA s

/-- LDA (R171), opcode A7, mode [d] (R141). -/
def execLdaDpIndLong (o : Byte) (s : State) : Out := readForm (.ldaDpIndLong o) s.wA (s.dpIndLong o) loadA s

/-- LDA (R171), opcode A9, mode #m (R131). -/
def execLdaImm (v : Word) (s : State) : Out := immForm (.ldaImm v) s.wA v loadA s

/-- LDA (R171), opcode AD, mode a (R132). -/
def execLdaAbs (a : Word) (s : State) : Out := readForm (.ldaAbs a) s.wA (s.absM a) loadA s

/-- LDA (R171), opcode AF, mode al (R135). -/
def execLdaLong (a : Addr) (s : State) : Out := readForm (.ldaLong a) s.wA (s.longM a) loadA s

/-- LDA (R171), opcode B1, mode (d),Y (R143). -/
def execLdaDpIndY (o : Byte) (s : State) : Out := readForm (.ldaDpIndY o) s.wA (s.dpIndY o) loadA s

/-- LDA (R171), opcode B2, mode (d) (R140). -/
def execLdaDpInd (o : Byte) (s : State) : Out := readForm (.ldaDpInd o) s.wA (s.dpInd o) loadA s

/-- LDA (R171), opcode B3, mode (d,S),Y (R146). -/
def execLdaSrIndY (o : Byte) (s : State) : Out := readForm (.ldaSrIndY o) s.wA (s.srIndY o) loadA s

/-- LDA (R171), opcode B5, mode d,X (R138). -/
def execLdaDpX (o : Byte) (s : State) : Out := readForm (.ldaDpX o) s.wA (s.dpX o) loadA s

/-- LDA (R171), opcode B7, mode [d],Y (R144). -/
def execLdaDpIndLongY (o : Byte) (s : State) : Out := readForm (.ldaDpIndLongY o) s.wA (s.dpIndLongY o) loadA s

/-- LDA (R171), opcode B9, mode a,Y (R134). -/
def execLdaAbsY (a : Word) (s : State) : Out := readForm (.ldaAbsY a) s.wA (s.absY a) loadA s

/-- LDA (R171), opcode BD, mode a,X (R133). -/
def execLdaAbsX (a : Word) (s : State) : Out := readForm (.ldaAbsX a) s.wA (s.absX a) loadA s

/-- LDA (R171), opcode BF, mode al,X (R136). -/
def execLdaLongX (a : Addr) (s : State) : Out := readForm (.ldaLongX a) s.wA (s.longX a) loadA s

/-- LDX (R172), opcode A2, mode #x (R131). -/
def execLdxImm (v : Word) (s : State) : Out := immForm (.ldxImm v) s.wX v loadX s

/-- LDX (R172), opcode A6, mode d (R137). -/
def execLdxDp (o : Byte) (s : State) : Out := readForm (.ldxDp o) s.wX (s.dp o) loadX s

/-- LDX (R172), opcode AE, mode a (R132). -/
def execLdxAbs (a : Word) (s : State) : Out := readForm (.ldxAbs a) s.wX (s.absM a) loadX s

/-- LDX (R172), opcode B6, mode d,Y (R139). -/
def execLdxDpY (o : Byte) (s : State) : Out := readForm (.ldxDpY o) s.wX (s.dpY o) loadX s

/-- LDX (R172), opcode BE, mode a,Y (R134). -/
def execLdxAbsY (a : Word) (s : State) : Out := readForm (.ldxAbsY a) s.wX (s.absY a) loadX s

/-- LDY (R173), opcode A0, mode #x (R131). -/
def execLdyImm (v : Word) (s : State) : Out := immForm (.ldyImm v) s.wX v loadY s

/-- LDY (R173), opcode A4, mode d (R137). -/
def execLdyDp (o : Byte) (s : State) : Out := readForm (.ldyDp o) s.wX (s.dp o) loadY s

/-- LDY (R173), opcode AC, mode a (R132). -/
def execLdyAbs (a : Word) (s : State) : Out := readForm (.ldyAbs a) s.wX (s.absM a) loadY s

/-- LDY (R173), opcode B4, mode d,X (R138). -/
def execLdyDpX (o : Byte) (s : State) : Out := readForm (.ldyDpX o) s.wX (s.dpX o) loadY s

/-- LDY (R173), opcode BC, mode a,X (R133). -/
def execLdyAbsX (a : Word) (s : State) : Out := readForm (.ldyAbsX a) s.wX (s.absX a) loadY s

/-- STA (R174), opcode 81, mode (d,X) (R142). -/
def execStaDpXInd (o : Byte) (s : State) : Out := storeForm (.staDpXInd o) s.wA (s.dpXInd o) s.a s

/-- STA (R174), opcode 83, mode d,S (R145). -/
def execStaSr (o : Byte) (s : State) : Out := storeForm (.staSr o) s.wA (s.sr o) s.a s

/-- STA (R174), opcode 85, mode d (R137). -/
def execStaDp (o : Byte) (s : State) : Out := storeForm (.staDp o) s.wA (s.dp o) s.a s

/-- STA (R174), opcode 87, mode [d] (R141). -/
def execStaDpIndLong (o : Byte) (s : State) : Out := storeForm (.staDpIndLong o) s.wA (s.dpIndLong o) s.a s

/-- STA (R174), opcode 8D, mode a (R132). -/
def execStaAbs (a : Word) (s : State) : Out := storeForm (.staAbs a) s.wA (s.absM a) s.a s

/-- STA (R174), opcode 8F, mode al (R135). -/
def execStaLong (a : Addr) (s : State) : Out := storeForm (.staLong a) s.wA (s.longM a) s.a s

/-- STA (R174), opcode 91, mode (d),Y (R143). -/
def execStaDpIndY (o : Byte) (s : State) : Out := storeForm (.staDpIndY o) s.wA (s.dpIndY o) s.a s

/-- STA (R174), opcode 92, mode (d) (R140). -/
def execStaDpInd (o : Byte) (s : State) : Out := storeForm (.staDpInd o) s.wA (s.dpInd o) s.a s

/-- STA (R174), opcode 93, mode (d,S),Y (R146). -/
def execStaSrIndY (o : Byte) (s : State) : Out := storeForm (.staSrIndY o) s.wA (s.srIndY o) s.a s

/-- STA (R174), opcode 95, mode d,X (R138). -/
def execStaDpX (o : Byte) (s : State) : Out := storeForm (.staDpX o) s.wA (s.dpX o) s.a s

/-- STA (R174), opcode 97, mode [d],Y (R144). -/
def execStaDpIndLongY (o : Byte) (s : State) : Out := storeForm (.staDpIndLongY o) s.wA (s.dpIndLongY o) s.a s

/-- STA (R174), opcode 99, mode a,Y (R134). -/
def execStaAbsY (a : Word) (s : State) : Out := storeForm (.staAbsY a) s.wA (s.absY a) s.a s

/-- STA (R174), opcode 9D, mode a,X (R133). -/
def execStaAbsX (a : Word) (s : State) : Out := storeForm (.staAbsX a) s.wA (s.absX a) s.a s

/-- STA (R174), opcode 9F, mode al,X (R136). -/
def execStaLongX (a : Addr) (s : State) : Out := storeForm (.staLongX a) s.wA (s.longX a) s.a s

/-- STX (R175), opcode 86, mode d (R137). -/
def execStxDp (o : Byte) (s : State) : Out := storeForm (.stxDp o) s.wX (s.dp o) s.x s

/-- STX (R175), opcode 8E, mode a (R132). -/
def execStxAbs (a : Word) (s : State) : Out := storeForm (.stxAbs a) s.wX (s.absM a) s.x s

/-- STX (R175), opcode 96, mode d,Y (R139). -/
def execStxDpY (o : Byte) (s : State) : Out := storeForm (.stxDpY o) s.wX (s.dpY o) s.x s

/-- STY (R176), opcode 84, mode d (R137). -/
def execStyDp (o : Byte) (s : State) : Out := storeForm (.styDp o) s.wX (s.dp o) s.y s

/-- STY (R176), opcode 8C, mode a (R132). -/
def execStyAbs (a : Word) (s : State) : Out := storeForm (.styAbs a) s.wX (s.absM a) s.y s

/-- STY (R176), opcode 94, mode d,X (R138). -/
def execStyDpX (o : Byte) (s : State) : Out := storeForm (.styDpX o) s.wX (s.dpX o) s.y s

/-- STZ (R177), opcode 64, mode d (R137). -/
def execStzDp (o : Byte) (s : State) : Out := storeForm (.stzDp o) s.wA (s.dp o) 0 s

/-- STZ (R177), opcode 74, mode d,X (R138). -/
def execStzDpX (o : Byte) (s : State) : Out := storeForm (.stzDpX o) s.wA (s.dpX o) 0 s

/-- STZ (R177), opcode 9C, mode a (R132). -/
def execStzAbs (a : Word) (s : State) : Out := storeForm (.stzAbs a) s.wA (s.absM a) 0 s

/-- STZ (R177), opcode 9E, mode a,X (R133). -/
def execStzAbsX (a : Word) (s : State) : Out := storeForm (.stzAbsX a) s.wA (s.absX a) 0 s

end Sys2Proof.Machine
end

