-- ==== Sys2Proof/Machine/Rmw.lean ====
section
/-! DEFINITION. Shifts, rotates, increments, decrements, bit reset and set (43_rmw.md R220 to R234). -/

namespace Sys2Proof.Machine

/-- ASL (R221), opcode 06, mode d (R137). -/
def execAslDp (o : Byte) (s : State) : Out := rmwForm (.aslDp o) (s.dp o) asl s

/-- ASL (R221), opcode 0A, mode A (R153). -/
def execAslAcc (s : State) : Out := accForm .aslAcc asl s

/-- ASL (R221), opcode 0E, mode a (R132). -/
def execAslAbs (a : Word) (s : State) : Out := rmwForm (.aslAbs a) (s.absM a) asl s

/-- ASL (R221), opcode 16, mode d,X (R138). -/
def execAslDpX (o : Byte) (s : State) : Out := rmwForm (.aslDpX o) (s.dpX o) asl s

/-- ASL (R221), opcode 1E, mode a,X (R133). -/
def execAslAbsX (a : Word) (s : State) : Out := rmwForm (.aslAbsX a) (s.absX a) asl s

/-- LSR (R222), opcode 46, mode d (R137). -/
def execLsrDp (o : Byte) (s : State) : Out := rmwForm (.lsrDp o) (s.dp o) lsr s

/-- LSR (R222), opcode 4A, mode A (R153). -/
def execLsrAcc (s : State) : Out := accForm .lsrAcc lsr s

/-- LSR (R222), opcode 4E, mode a (R132). -/
def execLsrAbs (a : Word) (s : State) : Out := rmwForm (.lsrAbs a) (s.absM a) lsr s

/-- LSR (R222), opcode 56, mode d,X (R138). -/
def execLsrDpX (o : Byte) (s : State) : Out := rmwForm (.lsrDpX o) (s.dpX o) lsr s

/-- LSR (R222), opcode 5E, mode a,X (R133). -/
def execLsrAbsX (a : Word) (s : State) : Out := rmwForm (.lsrAbsX a) (s.absX a) lsr s

/-- ROL (R223), opcode 26, mode d (R137). -/
def execRolDp (o : Byte) (s : State) : Out := rmwForm (.rolDp o) (s.dp o) rol s

/-- ROL (R223), opcode 2A, mode A (R153). -/
def execRolAcc (s : State) : Out := accForm .rolAcc rol s

/-- ROL (R223), opcode 2E, mode a (R132). -/
def execRolAbs (a : Word) (s : State) : Out := rmwForm (.rolAbs a) (s.absM a) rol s

/-- ROL (R223), opcode 36, mode d,X (R138). -/
def execRolDpX (o : Byte) (s : State) : Out := rmwForm (.rolDpX o) (s.dpX o) rol s

/-- ROL (R223), opcode 3E, mode a,X (R133). -/
def execRolAbsX (a : Word) (s : State) : Out := rmwForm (.rolAbsX a) (s.absX a) rol s

/-- ROR (R224), opcode 66, mode d (R137). -/
def execRorDp (o : Byte) (s : State) : Out := rmwForm (.rorDp o) (s.dp o) ror s

/-- ROR (R224), opcode 6A, mode A (R153). -/
def execRorAcc (s : State) : Out := accForm .rorAcc ror s

/-- ROR (R224), opcode 6E, mode a (R132). -/
def execRorAbs (a : Word) (s : State) : Out := rmwForm (.rorAbs a) (s.absM a) ror s

/-- ROR (R224), opcode 76, mode d,X (R138). -/
def execRorDpX (o : Byte) (s : State) : Out := rmwForm (.rorDpX o) (s.dpX o) ror s

/-- ROR (R224), opcode 7E, mode a,X (R133). -/
def execRorAbsX (a : Word) (s : State) : Out := rmwForm (.rorAbsX a) (s.absX a) ror s

/-- INC (R225), opcode 1A, mode A (R153). -/
def execIncAcc (s : State) : Out := accForm .incAcc incr s

/-- INC (R225), opcode E6, mode d (R137). -/
def execIncDp (o : Byte) (s : State) : Out := rmwForm (.incDp o) (s.dp o) incr s

/-- INC (R225), opcode EE, mode a (R132). -/
def execIncAbs (a : Word) (s : State) : Out := rmwForm (.incAbs a) (s.absM a) incr s

/-- INC (R225), opcode F6, mode d,X (R138). -/
def execIncDpX (o : Byte) (s : State) : Out := rmwForm (.incDpX o) (s.dpX o) incr s

/-- INC (R225), opcode FE, mode a,X (R133). -/
def execIncAbsX (a : Word) (s : State) : Out := rmwForm (.incAbsX a) (s.absX a) incr s

/-- DEC (R226), opcode 3A, mode A (R153). -/
def execDecAcc (s : State) : Out := accForm .decAcc decr s

/-- DEC (R226), opcode C6, mode d (R137). -/
def execDecDp (o : Byte) (s : State) : Out := rmwForm (.decDp o) (s.dp o) decr s

/-- DEC (R226), opcode CE, mode a (R132). -/
def execDecAbs (a : Word) (s : State) : Out := rmwForm (.decAbs a) (s.absM a) decr s

/-- DEC (R226), opcode D6, mode d,X (R138). -/
def execDecDpX (o : Byte) (s : State) : Out := rmwForm (.decDpX o) (s.dpX o) decr s

/-- DEC (R226), opcode DE, mode a,X (R133). -/
def execDecAbsX (a : Word) (s : State) : Out := rmwForm (.decAbsX a) (s.absX a) decr s

/-- INX (R227), opcode E8. -/
def execInx (s : State) : Out := finish .inx s (s.setX s.wX (s.wX.trunc s.x + 1))

/-- INY (R228), opcode C8. -/
def execIny (s : State) : Out := finish .iny s (s.setY s.wX (s.wX.trunc s.y + 1))

/-- DEX (R229), opcode CA. -/
def execDex (s : State) : Out := finish .dex s (s.setX s.wX (s.wX.trunc s.x - 1))

/-- DEY (R230), opcode 88. -/
def execDey (s : State) : Out := finish .dey s (s.setY s.wX (s.wX.trunc s.y - 1))

/-- TRB (R231), opcode 14, mode d (R137). -/
def execTrbDp (o : Byte) (s : State) : Out := rmwForm (.trbDp o) (s.dp o) trb s

/-- TRB (R231), opcode 1C, mode a (R132). -/
def execTrbAbs (a : Word) (s : State) : Out := rmwForm (.trbAbs a) (s.absM a) trb s

/-- TSB (R232), opcode 04, mode d (R137). -/
def execTsbDp (o : Byte) (s : State) : Out := rmwForm (.tsbDp o) (s.dp o) tsb s

/-- TSB (R232), opcode 0C, mode a (R132). -/
def execTsbAbs (a : Word) (s : State) : Out := rmwForm (.tsbAbs a) (s.absM a) tsb s

end Sys2Proof.Machine
end

