-- ==== Sys2Proof/Machine/Stack.lean ====
section
/-! DEFINITION. Pushes, pulls and push effective address (45_stack.md R290 to R306). -/

namespace Sys2Proof.Machine

/-- PLA (R298): A.h is cleared at width 8, unlike LDA. -/
def State.pullA (s : State) : State :=
  let r := s.pullW s.wA
  { r.2 with a := r.1 }.setNZ s.wA r.1

/-- PLX (R299). -/
def State.pullX (s : State) : State :=
  let r := s.pullW s.wX
  { r.2 with x := r.1 }.setNZ s.wX r.1

/-- PLY (R300). -/
def State.pullY (s : State) : State :=
  let r := s.pullW s.wX
  { r.2 with y := r.1 }.setNZ s.wX r.1

/-- N and Z of PLB and PLD, when PULL_BD_SETS_NZ (R302, R303; D15: notes/assumptions/6.md). -/
def State.setPulledNZ (s : State) (w : Width) (v : Word) : State :=
  if s.cfg.pullBDSetsNZ then s.setNZ w v else s

/-- PLB (R302). -/
def State.pullDB (s : State) : State :=
  let r := s.pull8
  { r.2 with db := r.1 }.setPulledNZ .w8 (r.1.setWidth 16)

/-- PLD (R303). -/
def State.pullD (s : State) : State :=
  let r := s.pull16
  { r.2 with d := r.1 }.setPulledNZ .w16 r.1

/-- PHA (R291), opcode 48. -/
def execPha (s : State) : Out := finish .pha s (s.pushW s.wA s.a)

/-- PHX (R292), opcode DA. -/
def execPhx (s : State) : Out := finish .phx s (s.pushW s.wX s.x)

/-- PHY (R293), opcode 5A. -/
def execPhy (s : State) : Out := finish .phy s (s.pushW s.wX s.y)

/-- PHP (R294), opcode 08. -/
def execPhp (s : State) : Out := finish .php s (s.push8 s.p)

/-- PHB (R295), opcode 8B. -/
def execPhb (s : State) : Out := finish .phb s (s.push8 s.db)

/-- PHD (R296), opcode 0B. -/
def execPhd (s : State) : Out := finish .phd s (s.push16 s.d)

/-- PHK (R297), opcode 4B. -/
def execPhk (s : State) : Out := finish .phk s (s.push8 s.pb)

/-- PLA (R298), opcode 68. -/
def execPla (s : State) : Out := finish .pla s (s.pullA)

/-- PLX (R299), opcode FA. -/
def execPlx (s : State) : Out := finish .plx s (s.pullX)

/-- PLY (R300), opcode 7A. -/
def execPly (s : State) : Out := finish .ply s (s.pullY)

/-- PLP (R301), opcode 28. -/
def execPlp (s : State) : Out := finish .plp s (s.pull8.2.setP s.pull8.1)

/-- PLB (R302), opcode AB. -/
def execPlb (s : State) : Out := finish .plb s (s.pullDB)

/-- PLD (R303), opcode 2B. -/
def execPld (s : State) : Out := finish .pld s (s.pullD)

/-- PEA (R304), opcode F4, mode #16 (R131). -/
def execPea (v : Word) (s : State) : Out := finish (.pea v) s (s.push16 v)

/-- PEI (R305), opcode D4, mode d (R137). -/
def execPei (o : Byte) (s : State) : Out := finish (.pei o) s (s.push16 (s.readOp (s.dp o).ea .w16)) (s.dp o).penalty

/-- PER (R306), opcode 62, mode rl (R152). -/
def execPer (d : Word) (s : State) : Out := finish (.per d) s (s.push16 (s.rel16 d))

end Sys2Proof.Machine
end

