-- ==== Sys2Proof/Machine/Dispatch.lean ====
section
/-! DEFINITION. One arm per instruction: the handler of its opcode (30_encoding.md R104, R105). -/

namespace Sys2Proof.Machine

def exec (i : Instr) (s : State) : Host.Outcome State Fault Refusal :=
  match i with
  -- loads and stores (41_load_store.md)
  | .ldaDpXInd o => Sys2Proof.Machine.execLdaDpXInd o s
  | .ldaSr o => Sys2Proof.Machine.execLdaSr o s
  | .ldaDp o => Sys2Proof.Machine.execLdaDp o s
  | .ldaDpIndLong o => Sys2Proof.Machine.execLdaDpIndLong o s
  | .ldaImm v => Sys2Proof.Machine.execLdaImm v s
  | .ldaAbs a => Sys2Proof.Machine.execLdaAbs a s
  | .ldaLong a => Sys2Proof.Machine.execLdaLong a s
  | .ldaDpIndY o => Sys2Proof.Machine.execLdaDpIndY o s
  | .ldaDpInd o => Sys2Proof.Machine.execLdaDpInd o s
  | .ldaSrIndY o => Sys2Proof.Machine.execLdaSrIndY o s
  | .ldaDpX o => Sys2Proof.Machine.execLdaDpX o s
  | .ldaDpIndLongY o => Sys2Proof.Machine.execLdaDpIndLongY o s
  | .ldaAbsY a => Sys2Proof.Machine.execLdaAbsY a s
  | .ldaAbsX a => Sys2Proof.Machine.execLdaAbsX a s
  | .ldaLongX a => Sys2Proof.Machine.execLdaLongX a s
  | .ldxImm v => Sys2Proof.Machine.execLdxImm v s
  | .ldxDp o => Sys2Proof.Machine.execLdxDp o s
  | .ldxAbs a => Sys2Proof.Machine.execLdxAbs a s
  | .ldxDpY o => Sys2Proof.Machine.execLdxDpY o s
  | .ldxAbsY a => Sys2Proof.Machine.execLdxAbsY a s
  | .ldyImm v => Sys2Proof.Machine.execLdyImm v s
  | .ldyDp o => Sys2Proof.Machine.execLdyDp o s
  | .ldyAbs a => Sys2Proof.Machine.execLdyAbs a s
  | .ldyDpX o => Sys2Proof.Machine.execLdyDpX o s
  | .ldyAbsX a => Sys2Proof.Machine.execLdyAbsX a s
  | .staDpXInd o => Sys2Proof.Machine.execStaDpXInd o s
  | .staSr o => Sys2Proof.Machine.execStaSr o s
  | .staDp o => Sys2Proof.Machine.execStaDp o s
  | .staDpIndLong o => Sys2Proof.Machine.execStaDpIndLong o s
  | .staAbs a => Sys2Proof.Machine.execStaAbs a s
  | .staLong a => Sys2Proof.Machine.execStaLong a s
  | .staDpIndY o => Sys2Proof.Machine.execStaDpIndY o s
  | .staDpInd o => Sys2Proof.Machine.execStaDpInd o s
  | .staSrIndY o => Sys2Proof.Machine.execStaSrIndY o s
  | .staDpX o => Sys2Proof.Machine.execStaDpX o s
  | .staDpIndLongY o => Sys2Proof.Machine.execStaDpIndLongY o s
  | .staAbsY a => Sys2Proof.Machine.execStaAbsY a s
  | .staAbsX a => Sys2Proof.Machine.execStaAbsX a s
  | .staLongX a => Sys2Proof.Machine.execStaLongX a s
  | .stxDp o => Sys2Proof.Machine.execStxDp o s
  | .stxAbs a => Sys2Proof.Machine.execStxAbs a s
  | .stxDpY o => Sys2Proof.Machine.execStxDpY o s
  | .styDp o => Sys2Proof.Machine.execStyDp o s
  | .styAbs a => Sys2Proof.Machine.execStyAbs a s
  | .styDpX o => Sys2Proof.Machine.execStyDpX o s
  | .stzDp o => Sys2Proof.Machine.execStzDp o s
  | .stzDpX o => Sys2Proof.Machine.execStzDpX o s
  | .stzAbs a => Sys2Proof.Machine.execStzAbs a s
  | .stzAbsX a => Sys2Proof.Machine.execStzAbsX a s
  -- arithmetic, logic, compare, bit test (42_alu.md)
  | .adcDpXInd o => Sys2Proof.Machine.execAdcDpXInd o s
  | .adcSr o => Sys2Proof.Machine.execAdcSr o s
  | .adcDp o => Sys2Proof.Machine.execAdcDp o s
  | .adcDpIndLong o => Sys2Proof.Machine.execAdcDpIndLong o s
  | .adcImm v => Sys2Proof.Machine.execAdcImm v s
  | .adcAbs a => Sys2Proof.Machine.execAdcAbs a s
  | .adcLong a => Sys2Proof.Machine.execAdcLong a s
  | .adcDpIndY o => Sys2Proof.Machine.execAdcDpIndY o s
  | .adcDpInd o => Sys2Proof.Machine.execAdcDpInd o s
  | .adcSrIndY o => Sys2Proof.Machine.execAdcSrIndY o s
  | .adcDpX o => Sys2Proof.Machine.execAdcDpX o s
  | .adcDpIndLongY o => Sys2Proof.Machine.execAdcDpIndLongY o s
  | .adcAbsY a => Sys2Proof.Machine.execAdcAbsY a s
  | .adcAbsX a => Sys2Proof.Machine.execAdcAbsX a s
  | .adcLongX a => Sys2Proof.Machine.execAdcLongX a s
  | .sbcDpXInd o => Sys2Proof.Machine.execSbcDpXInd o s
  | .sbcSr o => Sys2Proof.Machine.execSbcSr o s
  | .sbcDp o => Sys2Proof.Machine.execSbcDp o s
  | .sbcDpIndLong o => Sys2Proof.Machine.execSbcDpIndLong o s
  | .sbcImm v => Sys2Proof.Machine.execSbcImm v s
  | .sbcAbs a => Sys2Proof.Machine.execSbcAbs a s
  | .sbcLong a => Sys2Proof.Machine.execSbcLong a s
  | .sbcDpIndY o => Sys2Proof.Machine.execSbcDpIndY o s
  | .sbcDpInd o => Sys2Proof.Machine.execSbcDpInd o s
  | .sbcSrIndY o => Sys2Proof.Machine.execSbcSrIndY o s
  | .sbcDpX o => Sys2Proof.Machine.execSbcDpX o s
  | .sbcDpIndLongY o => Sys2Proof.Machine.execSbcDpIndLongY o s
  | .sbcAbsY a => Sys2Proof.Machine.execSbcAbsY a s
  | .sbcAbsX a => Sys2Proof.Machine.execSbcAbsX a s
  | .sbcLongX a => Sys2Proof.Machine.execSbcLongX a s
  | .andDpXInd o => Sys2Proof.Machine.execAndDpXInd o s
  | .andSr o => Sys2Proof.Machine.execAndSr o s
  | .andDp o => Sys2Proof.Machine.execAndDp o s
  | .andDpIndLong o => Sys2Proof.Machine.execAndDpIndLong o s
  | .andImm v => Sys2Proof.Machine.execAndImm v s
  | .andAbs a => Sys2Proof.Machine.execAndAbs a s
  | .andLong a => Sys2Proof.Machine.execAndLong a s
  | .andDpIndY o => Sys2Proof.Machine.execAndDpIndY o s
  | .andDpInd o => Sys2Proof.Machine.execAndDpInd o s
  | .andSrIndY o => Sys2Proof.Machine.execAndSrIndY o s
  | .andDpX o => Sys2Proof.Machine.execAndDpX o s
  | .andDpIndLongY o => Sys2Proof.Machine.execAndDpIndLongY o s
  | .andAbsY a => Sys2Proof.Machine.execAndAbsY a s
  | .andAbsX a => Sys2Proof.Machine.execAndAbsX a s
  | .andLongX a => Sys2Proof.Machine.execAndLongX a s
  | .oraDpXInd o => Sys2Proof.Machine.execOraDpXInd o s
  | .oraSr o => Sys2Proof.Machine.execOraSr o s
  | .oraDp o => Sys2Proof.Machine.execOraDp o s
  | .oraDpIndLong o => Sys2Proof.Machine.execOraDpIndLong o s
  | .oraImm v => Sys2Proof.Machine.execOraImm v s
  | .oraAbs a => Sys2Proof.Machine.execOraAbs a s
  | .oraLong a => Sys2Proof.Machine.execOraLong a s
  | .oraDpIndY o => Sys2Proof.Machine.execOraDpIndY o s
  | .oraDpInd o => Sys2Proof.Machine.execOraDpInd o s
  | .oraSrIndY o => Sys2Proof.Machine.execOraSrIndY o s
  | .oraDpX o => Sys2Proof.Machine.execOraDpX o s
  | .oraDpIndLongY o => Sys2Proof.Machine.execOraDpIndLongY o s
  | .oraAbsY a => Sys2Proof.Machine.execOraAbsY a s
  | .oraAbsX a => Sys2Proof.Machine.execOraAbsX a s
  | .oraLongX a => Sys2Proof.Machine.execOraLongX a s
  | .eorDpXInd o => Sys2Proof.Machine.execEorDpXInd o s
  | .eorSr o => Sys2Proof.Machine.execEorSr o s
  | .eorDp o => Sys2Proof.Machine.execEorDp o s
  | .eorDpIndLong o => Sys2Proof.Machine.execEorDpIndLong o s
  | .eorImm v => Sys2Proof.Machine.execEorImm v s
  | .eorAbs a => Sys2Proof.Machine.execEorAbs a s
  | .eorLong a => Sys2Proof.Machine.execEorLong a s
  | .eorDpIndY o => Sys2Proof.Machine.execEorDpIndY o s
  | .eorDpInd o => Sys2Proof.Machine.execEorDpInd o s
  | .eorSrIndY o => Sys2Proof.Machine.execEorSrIndY o s
  | .eorDpX o => Sys2Proof.Machine.execEorDpX o s
  | .eorDpIndLongY o => Sys2Proof.Machine.execEorDpIndLongY o s
  | .eorAbsY a => Sys2Proof.Machine.execEorAbsY a s
  | .eorAbsX a => Sys2Proof.Machine.execEorAbsX a s
  | .eorLongX a => Sys2Proof.Machine.execEorLongX a s
  | .cmpDpXInd o => Sys2Proof.Machine.execCmpDpXInd o s
  | .cmpSr o => Sys2Proof.Machine.execCmpSr o s
  | .cmpDp o => Sys2Proof.Machine.execCmpDp o s
  | .cmpDpIndLong o => Sys2Proof.Machine.execCmpDpIndLong o s
  | .cmpImm v => Sys2Proof.Machine.execCmpImm v s
  | .cmpAbs a => Sys2Proof.Machine.execCmpAbs a s
  | .cmpLong a => Sys2Proof.Machine.execCmpLong a s
  | .cmpDpIndY o => Sys2Proof.Machine.execCmpDpIndY o s
  | .cmpDpInd o => Sys2Proof.Machine.execCmpDpInd o s
  | .cmpSrIndY o => Sys2Proof.Machine.execCmpSrIndY o s
  | .cmpDpX o => Sys2Proof.Machine.execCmpDpX o s
  | .cmpDpIndLongY o => Sys2Proof.Machine.execCmpDpIndLongY o s
  | .cmpAbsY a => Sys2Proof.Machine.execCmpAbsY a s
  | .cmpAbsX a => Sys2Proof.Machine.execCmpAbsX a s
  | .cmpLongX a => Sys2Proof.Machine.execCmpLongX a s
  | .cpxImm v => Sys2Proof.Machine.execCpxImm v s
  | .cpxDp o => Sys2Proof.Machine.execCpxDp o s
  | .cpxAbs a => Sys2Proof.Machine.execCpxAbs a s
  | .cpyImm v => Sys2Proof.Machine.execCpyImm v s
  | .cpyDp o => Sys2Proof.Machine.execCpyDp o s
  | .cpyAbs a => Sys2Proof.Machine.execCpyAbs a s
  | .bitDp o => Sys2Proof.Machine.execBitDp o s
  | .bitAbs a => Sys2Proof.Machine.execBitAbs a s
  | .bitDpX o => Sys2Proof.Machine.execBitDpX o s
  | .bitAbsX a => Sys2Proof.Machine.execBitAbsX a s
  | .bitImm v => Sys2Proof.Machine.execBitImm v s
  -- shifts, rotates, increments, decrements, bit reset and set (43_rmw.md)
  | .aslDp o => Sys2Proof.Machine.execAslDp o s
  | .aslAcc => Sys2Proof.Machine.execAslAcc s
  | .aslAbs a => Sys2Proof.Machine.execAslAbs a s
  | .aslDpX o => Sys2Proof.Machine.execAslDpX o s
  | .aslAbsX a => Sys2Proof.Machine.execAslAbsX a s
  | .lsrDp o => Sys2Proof.Machine.execLsrDp o s
  | .lsrAcc => Sys2Proof.Machine.execLsrAcc s
  | .lsrAbs a => Sys2Proof.Machine.execLsrAbs a s
  | .lsrDpX o => Sys2Proof.Machine.execLsrDpX o s
  | .lsrAbsX a => Sys2Proof.Machine.execLsrAbsX a s
  | .rolDp o => Sys2Proof.Machine.execRolDp o s
  | .rolAcc => Sys2Proof.Machine.execRolAcc s
  | .rolAbs a => Sys2Proof.Machine.execRolAbs a s
  | .rolDpX o => Sys2Proof.Machine.execRolDpX o s
  | .rolAbsX a => Sys2Proof.Machine.execRolAbsX a s
  | .rorDp o => Sys2Proof.Machine.execRorDp o s
  | .rorAcc => Sys2Proof.Machine.execRorAcc s
  | .rorAbs a => Sys2Proof.Machine.execRorAbs a s
  | .rorDpX o => Sys2Proof.Machine.execRorDpX o s
  | .rorAbsX a => Sys2Proof.Machine.execRorAbsX a s
  | .incAcc => Sys2Proof.Machine.execIncAcc s
  | .incDp o => Sys2Proof.Machine.execIncDp o s
  | .incAbs a => Sys2Proof.Machine.execIncAbs a s
  | .incDpX o => Sys2Proof.Machine.execIncDpX o s
  | .incAbsX a => Sys2Proof.Machine.execIncAbsX a s
  | .decAcc => Sys2Proof.Machine.execDecAcc s
  | .decDp o => Sys2Proof.Machine.execDecDp o s
  | .decAbs a => Sys2Proof.Machine.execDecAbs a s
  | .decDpX o => Sys2Proof.Machine.execDecDpX o s
  | .decAbsX a => Sys2Proof.Machine.execDecAbsX a s
  | .inx => Sys2Proof.Machine.execInx s
  | .iny => Sys2Proof.Machine.execIny s
  | .dex => Sys2Proof.Machine.execDex s
  | .dey => Sys2Proof.Machine.execDey s
  | .trbDp o => Sys2Proof.Machine.execTrbDp o s
  | .trbAbs a => Sys2Proof.Machine.execTrbAbs a s
  | .tsbDp o => Sys2Proof.Machine.execTsbDp o s
  | .tsbAbs a => Sys2Proof.Machine.execTsbAbs a s
  -- control transfer (44_control.md)
  | .bcc d => Sys2Proof.Machine.execBcc d s
  | .bcs d => Sys2Proof.Machine.execBcs d s
  | .beq d => Sys2Proof.Machine.execBeq d s
  | .bmi d => Sys2Proof.Machine.execBmi d s
  | .bne d => Sys2Proof.Machine.execBne d s
  | .bpl d => Sys2Proof.Machine.execBpl d s
  | .bvc d => Sys2Proof.Machine.execBvc d s
  | .bvs d => Sys2Proof.Machine.execBvs d s
  | .bra d => Sys2Proof.Machine.execBra d s
  | .brl d => Sys2Proof.Machine.execBrl d s
  | .jmpAbs a => Sys2Proof.Machine.execJmpAbs a s
  | .jmpAbsInd a => Sys2Proof.Machine.execJmpAbsInd a s
  | .jmpAbsXInd a => Sys2Proof.Machine.execJmpAbsXInd a s
  | .jmlLong a => Sys2Proof.Machine.execJmlLong a s
  | .jmlAbsIndLong a => Sys2Proof.Machine.execJmlAbsIndLong a s
  | .jsrAbs a => Sys2Proof.Machine.execJsrAbs a s
  | .jsrAbsXInd a => Sys2Proof.Machine.execJsrAbsXInd a s
  | .jsl a => Sys2Proof.Machine.execJsl a s
  | .rts => Sys2Proof.Machine.execRts s
  | .rtl => Sys2Proof.Machine.execRtl s
  | .rti => Sys2Proof.Machine.execRti s
  | .brk sig => Sys2Proof.Machine.execBrk sig s
  | .cop sig => Sys2Proof.Machine.execCop sig s
  -- block moves and miscellaneous (47_block_misc.md)
  | .mvn dst src => Sys2Proof.Machine.execMvn dst src s
  | .mvp dst src => Sys2Proof.Machine.execMvp dst src s
  | .nop => Sys2Proof.Machine.execNop s
  | .wdm o => Sys2Proof.Machine.execWdm o s
  | .wai => Sys2Proof.Machine.execWai s
  | .stp => Sys2Proof.Machine.execStp s
  -- stack (45_stack.md)
  | .pha => Sys2Proof.Machine.execPha s
  | .phx => Sys2Proof.Machine.execPhx s
  | .phy => Sys2Proof.Machine.execPhy s
  | .php => Sys2Proof.Machine.execPhp s
  | .phb => Sys2Proof.Machine.execPhb s
  | .phd => Sys2Proof.Machine.execPhd s
  | .phk => Sys2Proof.Machine.execPhk s
  | .pla => Sys2Proof.Machine.execPla s
  | .plx => Sys2Proof.Machine.execPlx s
  | .ply => Sys2Proof.Machine.execPly s
  | .plp => Sys2Proof.Machine.execPlp s
  | .plb => Sys2Proof.Machine.execPlb s
  | .pld => Sys2Proof.Machine.execPld s
  | .pea v => Sys2Proof.Machine.execPea v s
  | .pei o => Sys2Proof.Machine.execPei o s
  | .per d => Sys2Proof.Machine.execPer d s
  -- flags, transfers, exchanges (46_flags_transfers.md)
  | .rep mask => Sys2Proof.Machine.execRep mask s
  | .sep mask => Sys2Proof.Machine.execSep mask s
  | .clc => Sys2Proof.Machine.execClc s
  | .cld => Sys2Proof.Machine.execCld s
  | .cli => Sys2Proof.Machine.execCli s
  | .clv => Sys2Proof.Machine.execClv s
  | .sec => Sys2Proof.Machine.execSec s
  | .sed => Sys2Proof.Machine.execSed s
  | .sei => Sys2Proof.Machine.execSei s
  | .tax => Sys2Proof.Machine.execTax s
  | .tay => Sys2Proof.Machine.execTay s
  | .txa => Sys2Proof.Machine.execTxa s
  | .tya => Sys2Proof.Machine.execTya s
  | .txy => Sys2Proof.Machine.execTxy s
  | .tyx => Sys2Proof.Machine.execTyx s
  | .tsx => Sys2Proof.Machine.execTsx s
  | .txs => Sys2Proof.Machine.execTxs s
  | .tcd => Sys2Proof.Machine.execTcd s
  | .tdc => Sys2Proof.Machine.execTdc s
  | .tcs => Sys2Proof.Machine.execTcs s
  | .tsc => Sys2Proof.Machine.execTsc s
  | .xba => Sys2Proof.Machine.execXba s
  | .xce => Sys2Proof.Machine.execXce s

end Sys2Proof.Machine
end

