-- ==== Sys2Proof/Machine/Run.lean ====
section
/-! DEFINITION. The `Step` procedure (60_exceptions.md R410) with its fetch (20_memory.md R70, 30_encoding.md R104), the
unknown-opcode path (R107), and the placing of an instruction where the next step fetches. -/

namespace Sys2Proof.Machine

/-- The next four bytes of the program stream, bank PB, PC wrapping in 16 bits (R70, R100). No instruction is longer, and
a read has no side effect (R61), so reading a byte the instruction does not have changes nothing
(notes/assumptions/2.md). -/
def State.fetchBytes (s : State) : List Byte :=
  [s.busRead (addr24 s.pb s.pc), s.busRead (addr24 s.pb (s.pc + 1)), s.busRead (addr24 s.pb (s.pc + 2)),
    s.busRead (addr24 s.pb (s.pc + 3))]

/-- The opcode byte at PB:PC (R104). -/
def State.fetchOpcode (s : State) : Byte := s.busRead (addr24 s.pb s.pc)

/-- `UnknownOpcode(opcode, opaddr)` (R107): PC past the opcode byte, one diagnostic record, 2 cycles. -/
def State.unknownOpcode (s : State) (opcode : Byte) : State :=
  let record : Diagnostic := { opcode := opcode, addr := addr24 s.pb s.pc }
  { s with pc := s.pc + 1, diag := s.diag ++ [record] }.tick unknownCost

/-- Apply a function to a next state. -/
def mapNext (f : State → State) : Out → Out
  | .next t => .next (f t)
  | .fault r => .fault r
  | .refused r => .refused r

/-- Run a decoded instruction of `len` bytes: PC past its bytes, then its handler, then EnforceModeInvariants (R410). -/
def State.runDecoded (s : State) (i : Instr) (len : Nat) : Out :=
  mapNext State.enforceModes (exec i { s with pc := s.pc + BitVec.ofNat 16 len })

/-- Fetch, dispatch and execute one instruction (R104, R410). -/
def State.runInstruction (s : State) : Out :=
  if s.fetchOpcode ∈ s.cfg.undefinedOpcodes then .next (s.unknownOpcode s.fetchOpcode).enforceModes
  else
    match decode (s.flag .m) (s.flag .x) s.fetchBytes with
    | .ok ir => s.runDecoded ir.1 (s.fetchBytes.length - ir.2.length)
    | .error e => .refused (.undecodable e)

/-- An asserted IRQ ends WAI even if it is masked (R410, R420). -/
def State.irqWake (s : State) : State := if s.irqPending then { s with waiting := false } else s

/-- `Step()` (R410). -/
def State.stepProcedure (s : State) : Out :=
  if s.stopped then .next s
  else if s.nmiPending then .next ({ s with nmiPending := false }.trapEntry .nmi)
  else
    let s1 := s.irqWake
    if s1.irqPending && !s1.flag .i then .next ({ s1 with irqPending := false }.trapEntry .irq)
    else if s1.waiting then .next s1
    else s1.runInstruction

/-- Change the byte an address reads as, in memory or in ROM; open bus has none to change. The program loader's own
operation, not one of CORE. -/
def State.placeByte (s : State) (addr : Addr) (v : Byte) : State :=
  match s.slot addr with
  | .ram h _ => { s with mem := s.mem.write h.toNat v }
  | .rom k => { s with cfg := { s.cfg with rom := Memory.write s.cfg.rom (k % s.cfg.romSize) v } }
  | .openBus => s

/-- Place bytes in the program stream at `PB:pc` (R70). -/
def State.placeBytes (s : State) (pc : Word) : List Byte → State
  | [] => s
  | b :: bs => (s.placeByte (addr24 s.pb pc) b).placeBytes (pc + 1) bs

/-- The state whose next step runs the instruction of a table word: its four bytes at PB:PC, the machine neither stopped
nor waiting, and no interrupt that would be taken first (notes/assumptions/27.md). -/
def State.placeWord (s : State) (nbits w : Nat) : State :=
  { s with
    stopped := false
    waiting := false
    nmiPending := false
    irqPending := s.irqPending && s.flag .i }.placeBytes s.pc (tableBytes nbits w)

end Sys2Proof.Machine
end

