-- ==== Sys2Proof/Machine/Step.lean ====
section
/-! DEFINITION. One step of CORE. The procedure and everything it calls are in Machine/Run.lean. -/

namespace Sys2Proof.Machine

/-- `Step()` (60_exceptions.md R410). -/
def step (s : State) : Host.Outcome State Fault Refusal := s.stepProcedure

/-- The state whose next step fetches and runs the instruction of a table word (notes/assumptions/27.md). -/
def State.withFetchWord (s : State) (nbits w : Nat) : State := s.placeWord nbits w

end Sys2Proof.Machine
end

