-- ==== Sys2Proof/Machine/HostOps.lean ====
section
/-! DEFINITION. The moves of the host and of other bus agents, which happen only between two steps (00_scope.md R11). -/

namespace Sys2Proof.Machine

/-- `reset()` (70_reset_and_hazards.md R440): memory, the diagnostic list and the parameters survive it. -/
def State.hostReset (s : State) : State := State.resetWith s.cfg s.mem s.diag

/-- `raise_irq()` (60_exceptions.md R411). -/
def State.raiseIrq (s : State) : State := { s with irqPending := true }

/-- `raise_nmi()` (R411). -/
def State.raiseNmi (s : State) : State := { s with nmiPending := true }

/-- A write by a DMA-like external agent (20_memory.md R84). -/
def State.busPoke (s : State) (addr : Addr) (v : Byte) : State := s.busWrite addr v

/-- The ten names `read_register` and `write_register` know (10_state.md R43). -/
inductive RegName where
  | a | x | y | sp | pc | pb | db | d | p | e
  deriving DecidableEq, Repr

/-- `read_register(name)` (R43). -/
def State.readRegister (s : State) : RegName → Nat
  | .a => s.a.toNat
  | .x => s.x.toNat
  | .y => s.y.toNat
  | .sp => s.sp.toNat
  | .pc => s.pc.toNat
  | .pb => s.pb.toNat
  | .db => s.db.toNat
  | .d => s.d.toNat
  | .p => s.p.toNat
  | .e => s.e.toNat

/-- The write of `write_register` before the invariants are restored: the value truncated to the register (R43). -/
def State.pokeRegister (s : State) (r : RegName) (value : Nat) : State :=
  match r with
  | .a => { s with a := BitVec.ofNat 16 value }
  | .x => { s with x := BitVec.ofNat 16 value }
  | .y => { s with y := BitVec.ofNat 16 value }
  | .sp => { s with sp := BitVec.ofNat 16 value }
  | .pc => { s with pc := BitVec.ofNat 16 value }
  | .pb => { s with pb := BitVec.ofNat 8 value }
  | .db => { s with db := BitVec.ofNat 8 value }
  | .d => { s with d := BitVec.ofNat 16 value }
  | .p => { s with p := BitVec.ofNat 8 value }
  | .e => { s with e := decide (value % 2 = 1) }

/-- `write_register(name, value)` (R43, D27: notes/assumptions/26.md). -/
def State.writeRegister (s : State) (r : RegName) (value : Nat) : State := (s.pokeRegister r value).enforceModes

end Sys2Proof.Machine
end

