-- ==== Sys2Proof/Safety.lean ====
section
/-! DEFINITION. The terms claims are stated in: what a state of a run satisfies (10_state.md R41, 60_exceptions.md R417),
which bytes an instruction stores, which flags it writes, and the forms an instruction comes in. -/

namespace Sys2Proof.Machine

/-! ### Invariants -/

/-- Items 1 and 2 of R41: E = 1 forces P.M, P.X and SP.h, and P.X = 1 forces X.h and Y.h. -/
def State.ModeInv (s : State) : Prop :=
  (s.e = true → s.flag .m = true ∧ s.flag .x = true ∧ hi s.sp = 0x01) ∧
    (s.flag .x = true → hi s.x = 0x00 ∧ hi s.y = 0x00)

/-- The invariant of every run: the mode invariants, the canonical form of memory, and at most one halt latch (R417). -/
def State.Inv (s : State) : Prop :=
  s.ModeInv ∧ s.mem.wf ∧ ¬(s.stopped = true ∧ s.waiting = true)

/-- The next step runs an instruction: not stopped, no interrupt is taken first, and not waiting unless an IRQ is
pending, which ends WAI (R410, R420). -/
def State.Running (s : State) : Prop :=
  s.stopped = false ∧ s.nmiPending = false ∧ (s.irqPending = true → s.flag .i = true) ∧
    (s.waiting = true → s.irqPending = true)

/-! ### The bytes an instruction stores -/

/-- The address under which the byte that `a` names is stored; none in ROM and open bus (R62 to R64). -/
def State.home (s : State) (a : Addr) : Option Addr :=
  match s.slot a with
  | .ram h _ => some h
  | .rom _ => none
  | .openBus => none

/-- `b` names the stored byte that `a` names (R62: the two addresses of a mirrored byte). -/
abbrev State.sameByte (s : State) (a b : Addr) : Prop := s.home a ≠ none ∧ s.home b = s.home a

/-- The address is a read/write byte: it takes the byte written (WRAM of R62, every byte of FlatTestBus, R66). -/
def State.writable (s : State) (a : Addr) : Bool :=
  match s.slot a with
  | .ram _ .plain => true
  | _ => false

/-- What a write of `v` to `a` leaves in the byte `a` names; where it names none, the byte it reads as (R61, R63, R64). -/
def State.stored (s : State) (a : Addr) (v : Byte) : Byte :=
  match s.slot a with
  | .ram h rule => storedByte s.mem h a v rule
  | .rom _ => s.busRead a
  | .openBus => s.busRead a

/-- The index in WRAM that MinimalMap gives an address (R62): the mirror of its first 8 KiB, or its own 128 KiB. -/
def wramIndex (a : Addr) : Option Nat :=
  if a.toNat < 0x002000 then some a.toNat
  else if 0x7E0000 ≤ a.toNat ∧ a.toNat < 0x800000 then some (a.toNat - 0x7E0000)
  else none

/-- The bus writes of a list, one after the other (R61): what each does is obligation BusReadAfterWrite. -/
def State.busWrites (s : State) (stores : List (Addr × Byte)) : State :=
  stores.foldl (fun u c => u.busWrite c.1 c.2) s

/-- `t` has the parameters of `s` and the memory that exactly these stores leave: every address outside the stored bytes reads
as before, and every address reads as the bus writes make it. -/
def Stores (s t : State) (stores : List (Addr × Byte)) : Prop :=
  t.cfg = s.cfg ∧ t.mem = (s.busWrites stores).mem ∧
    (∀ b : Addr, (∀ c ∈ stores, ¬s.sameByte c.1 b) → t.busRead b = s.busRead b) ∧
    ∀ b : Addr, t.busRead b = (s.busWrites stores).busRead b

/-- The address of the second byte of a 16-bit operand (R67, R68): the next address, or the next offset of the bank. -/
def Ea.next (ea : Ea) : Addr :=
  match ea.wrap with
  | .lin => ea.addr + 1
  | .b0 => addr24 (addrBank ea.addr) (addrOffset ea.addr + 1)

/-- The bytes of an operand of width w at `ea` (R69): its low byte, and at width 16 its high byte. -/
def Ea.bytes (ea : Ea) (w : Width) (v : Word) : List (Addr × Byte) :=
  match w with
  | .w8 => [(ea.addr, lo v)]
  | .w16 => [(ea.addr, lo v), (ea.next, hi v)]

/-- SP after `n` pushes (R71): one lower for each, kept in page 1 in emulation mode. -/
def State.spAfterPushes (s : State) (n : Nat) : Word :=
  if n = 0 then s.sp else stackWrap s.e (s.sp - BitVec.ofNat 16 n)

/-- SP after `n` pulls (R71). -/
def State.spAfterPulls (s : State) (n : Nat) : Word :=
  if n = 0 then s.sp else stackWrap s.e (s.sp + BitVec.ofNat 16 n)

/-- The stores of pushing bytes, in the order pushed: each at 00:SP as it then stands (R71). -/
def State.pushes (s : State) (bytes : List Byte) : List (Addr × Byte) :=
  bytes.zipIdx.map fun bn => (addr24 0x00 (s.spAfterPushes bn.2), bn.1)

/-- The byte the `n`-th pull reads, counted from 1 (R71). -/
def State.pulled (s : State) (n : Nat) : Byte := s.busRead (addr24 0x00 (s.spAfterPulls n))

/-- The bytes of a value pushed at width w, in the order pushed (R72). -/
def pushOrder (w : Width) (v : Word) : List Byte :=
  match w with
  | .w8 => [lo v]
  | .w16 => [hi v, lo v]

/-- How many bytes width w is. -/
def Width.bytes : Width → Nat
  | .w8 => 1
  | .w16 => 2

/-- The value of width w that pulls read, zero-extended. -/
def State.pulledValue (s : State) (w : Width) : Word :=
  match w with
  | .w8 => word (s.pulled 1) 0x00
  | .w16 => word (s.pulled 1) (s.pulled 2)

/-- The next `n` pushes go to `n` different read/write bytes, and SP is where the mode keeps it: what a push and its pull
need to be each other's inverse (R71). -/
def State.StackRoom (s : State) (n : Nat) : Prop :=
  (s.e = true → hi s.sp = 0x01) ∧
    ∀ j < n, s.writable (addr24 0x00 (s.spAfterPushes j)) = true ∧
      ∀ k < n, s.home (addr24 0x00 (s.spAfterPushes j)) = s.home (addr24 0x00 (s.spAfterPushes k)) → j = k

/-- The bytes of a trap frame in the order pushed (R405): PB in native mode only, PC high, PC low, the copy of P. -/
def State.frame (s : State) (copy : Byte) : List Byte :=
  (if s.e then [] else [s.pb]) ++ [hi s.pc, lo s.pc, copy]

/-- The word at an offset of a bank, low byte first, the offset wrapping in 16 bits (R68). -/
def State.wordAt (s : State) (bank : Byte) (offset : Word) : Word :=
  word (s.busRead (addr24 bank offset)) (s.busRead (addr24 bank (offset + 1)))

/-- The three bytes at an offset of bank 0, low byte first, the offset wrapping in 16 bits (R68). -/
def State.longAt (s : State) (offset : Word) : Addr :=
  long (s.busRead (addr24 0x00 offset)) (s.busRead (addr24 0x00 (offset + 1))) (s.busRead (addr24 0x00 (offset + 2)))

/-! ### Flags -/

/-- Every flag outside `fs` is as before. -/
def FlagsKept (s t : State) (fs : List Flag) : Prop := ∀ f : Flag, f ∉ fs → t.flag f = s.flag f

/-- N and Z of `t` are those of a value of width w (R9). -/
def NZof (t : State) (w : Width) (v : Word) : Prop :=
  t.flag .n = w.msb v ∧ (t.flag .z = true ↔ v.toNat % 2 ^ w.bits = 0)

/-- The value of width w read as a two's complement number: `sext_w(v)` (R6). -/
def Width.signed (w : Width) (v : Word) : Int :=
  (w.trunc v).toNat - if w.msb v then (2 ^ w.bits : Int) else 0

/-- The number that the first `n` decimal digits of a value stand for. -/
def bcdValue (v : Word) : Nat → Nat
  | 0 => 0
  | n + 1 => bcdValue v n + nib v n * 10 ^ n

/-- The first `n` digits of a value are decimal digits. -/
def validBcd (v : Word) (n : Nat) : Prop := ∀ k < n, nib v k ≤ 9

/-! ### Cycle terms (R110) -/

/-- `m16`. -/
def State.m16 (s : State) : Nat := if s.flag .m then 0 else 1

/-- `x16`. -/
def State.x16 (s : State) : Nat := if s.flag .x then 0 else 1

/-- `e0`. -/
def State.e0 (s : State) : Nat := if s.e then 0 else 1

/-- `dl`. -/
def State.dl (s : State) : Nat := if lo s.d = 0 then 0 else 1

/-- `px`, for an addressing mode. -/
def State.px (_s : State) (r : Resolved) : Nat := r.px.toNat

/-- `s` with the cycles of an instruction added. -/
def State.after (s : State) (n : Nat) : State := { s with cycles := s.cycles + BitVec.ofNat 64 n }

/-- The cycles of an instruction: `n`, its number in the table of R111, when the parameter BaseCycles is that table; else
what the parameter's row says (R5, R110, D5: notes/assumptions/8.md). So a claim with it is a claim about every table. -/
def State.charge (s : State) (i : Instr) (n : Nat) (pen : Penalty := {}) : Nat :=
  if s.cfg.baseCycles = defaultCycles then n else cost i s pen

/-- The cycles of an entry, likewise: 7 + e0 with the table of R111 (R405, D20: notes/assumptions/38.md). -/
def State.chargeEntry (s : State) (ev : TrapEvent) : Nat :=
  if s.cfg.baseCycles = defaultCycles then 7 + s.e0 else s.entryCost ev

/-- What an entry does (R405), with the pushed copy of P and the vector given: the frame, I set and D cleared, PB = 0, PC
from the vector word as it reads after the frame is pushed, `waiting` cleared, the cycles (7 and one more in native mode,
with the table of R111); nothing else changes. -/
def Entered (s t : State) (ev : TrapEvent) (copy : Byte) (vec : Word) : Prop :=
  t = { s with sp := t.sp, pc := t.pc, pb := 0x00, p := t.p, waiting := false,
               cycles := s.cycles + BitVec.ofNat 64 (s.chargeEntry ev), mem := t.mem } ∧
    Stores s t (s.pushes (s.frame copy)) ∧ t.sp = s.spAfterPushes (s.frame copy).length ∧
    t.pc = t.wordAt 0x00 vec ∧ t.flag .i = true ∧ t.flag .d = false ∧ FlagsKept s t [.i, .d]

/-! ### The forms of an instruction

A claim about an instruction that comes in several addressing modes is stated once, for each of its constructors with
the operand or the address its mode gives (40_addressing.md) and the cycles of 30_encoding.md R111 (`State.charge`). -/

/-- A claim about a form that reads an operand: the instruction, the operand and the cycles, both from the state. -/
abbrev ReadClaim := Instr → (State → Word) → (State → Nat) → Prop

/-- A claim about a form that addresses memory: the instruction, the effective address and the cycles. -/
abbrev AddrClaim := Instr → (State → Ea) → (State → Nat) → Prop

/-- The claim for an immediate form whose number of R111 is `n`. -/
def ReadClaim.imm (claim : ReadClaim) (i : Instr) (operand : State → Word) (n : State → Nat) : Prop :=
  claim i operand fun s => s.charge i (n s)

/-- The claim for a form that reads at a mode's address, whose number of R111 is `n`. -/
def ReadClaim.mem (claim : ReadClaim) (i : Instr) (reads : (State → Resolved) → State → Word)
    (mode : State → Resolved) (n : State → Nat) : Prop :=
  claim i (reads mode) fun s => s.charge i (n s) (mode s).penalty

/-- The claim for a form that writes at a mode's address, whose number of R111 is `n`. -/
def AddrClaim.at (claim : AddrClaim) (i : Instr) (mode : State → Resolved) (n : State → Nat) : Prop :=
  claim i (fun s => (mode s).ea) fun s => s.charge i (n s) (mode s).penalty

/-- A memory operand of width wA at a mode's address. -/
def readsA (mode : State → Resolved) (s : State) : Word := s.readOp (mode s).ea s.wA

/-- A memory operand of width wX at a mode's address. -/
def readsX (mode : State → Resolved) (s : State) : Word := s.readOp (mode s).ea s.wX

/-- The fifteen forms of LDA, ADC, SBC, AND, ORA, EOR and CMP (R171, R194 to R199). -/
def accumulatorReads (imm : Word → Instr) (dp dpX : Byte → Instr) (absM absX absY : Word → Instr)
    (long longX : Addr → Instr) (dpInd dpXInd dpIndY dpIndLong dpIndLongY sr srIndY : Byte → Instr)
    (claim : ReadClaim) : Prop :=
  (∀ v, claim.imm (imm v) (fun s => s.wA.trunc v) fun s => 2 + s.m16) ∧
  (∀ o, claim.mem (dp o) readsA (fun s => s.dp o) fun s => 3 + s.m16 + s.dl) ∧
  (∀ o, claim.mem (dpX o) readsA (fun s => s.dpX o) fun s => 4 + s.m16 + s.dl) ∧
  (∀ a, claim.mem (absM a) readsA (fun s => s.absM a) fun s => 4 + s.m16) ∧
  (∀ a, claim.mem (absX a) readsA (fun s => s.absX a) fun s => 4 + s.m16 + s.px (s.absX a)) ∧
  (∀ a, claim.mem (absY a) readsA (fun s => s.absY a) fun s => 4 + s.m16 + s.px (s.absY a)) ∧
  (∀ a, claim.mem (long a) readsA (fun s => s.longM a) fun s => 5 + s.m16) ∧
  (∀ a, claim.mem (longX a) readsA (fun s => s.longX a) fun s => 5 + s.m16) ∧
  (∀ o, claim.mem (dpInd o) readsA (fun s => s.dpInd o) fun s => 5 + s.m16 + s.dl) ∧
  (∀ o, claim.mem (dpXInd o) readsA (fun s => s.dpXInd o) fun s => 6 + s.m16 + s.dl) ∧
  (∀ o, claim.mem (dpIndY o) readsA (fun s => s.dpIndY o) fun s => 5 + s.m16 + s.dl + s.px (s.dpIndY o)) ∧
  (∀ o, claim.mem (dpIndLong o) readsA (fun s => s.dpIndLong o) fun s => 6 + s.m16 + s.dl) ∧
  (∀ o, claim.mem (dpIndLongY o) readsA (fun s => s.dpIndLongY o) fun s => 6 + s.m16 + s.dl) ∧
  (∀ o, claim.mem (sr o) readsA (fun s => s.sr o) fun s => 4 + s.m16) ∧
  (∀ o, claim.mem (srIndY o) readsA (fun s => s.srIndY o) fun s => 7 + s.m16)

/-- The five forms of LDX (R172). -/
def ldxForms (claim : ReadClaim) : Prop :=
  (∀ v, claim.imm (.ldxImm v) (fun s => s.wX.trunc v) fun s => 2 + s.x16) ∧
  (∀ o, claim.mem (.ldxDp o) readsX (fun s => s.dp o) fun s => 3 + s.x16 + s.dl) ∧
  (∀ o, claim.mem (.ldxDpY o) readsX (fun s => s.dpY o) fun s => 4 + s.x16 + s.dl) ∧
  (∀ a, claim.mem (.ldxAbs a) readsX (fun s => s.absM a) fun s => 4 + s.x16) ∧
  (∀ a, claim.mem (.ldxAbsY a) readsX (fun s => s.absY a) fun s => 4 + s.x16 + s.px (s.absY a))

/-- The five forms of LDY (R173). -/
def ldyForms (claim : ReadClaim) : Prop :=
  (∀ v, claim.imm (.ldyImm v) (fun s => s.wX.trunc v) fun s => 2 + s.x16) ∧
  (∀ o, claim.mem (.ldyDp o) readsX (fun s => s.dp o) fun s => 3 + s.x16 + s.dl) ∧
  (∀ o, claim.mem (.ldyDpX o) readsX (fun s => s.dpX o) fun s => 4 + s.x16 + s.dl) ∧
  (∀ a, claim.mem (.ldyAbs a) readsX (fun s => s.absM a) fun s => 4 + s.x16) ∧
  (∀ a, claim.mem (.ldyAbsX a) readsX (fun s => s.absX a) fun s => 4 + s.x16 + s.px (s.absX a))

/-- The three forms of CPX or CPY (R200, R201). -/
def indexCompares (imm : Word → Instr) (dp : Byte → Instr) (absM : Word → Instr) (claim : ReadClaim) : Prop :=
  (∀ v, claim.imm (imm v) (fun s => s.wX.trunc v) fun s => 2 + s.x16) ∧
  (∀ o, claim.mem (dp o) readsX (fun s => s.dp o) fun s => 3 + s.x16 + s.dl) ∧
  (∀ a, claim.mem (absM a) readsX (fun s => s.absM a) fun s => 4 + s.x16)

/-- The four memory forms of BIT (R202). -/
def bitMemoryForms (claim : ReadClaim) : Prop :=
  (∀ o, claim.mem (.bitDp o) readsA (fun s => s.dp o) fun s => 3 + s.m16 + s.dl) ∧
  (∀ o, claim.mem (.bitDpX o) readsA (fun s => s.dpX o) fun s => 4 + s.m16 + s.dl) ∧
  (∀ a, claim.mem (.bitAbs a) readsA (fun s => s.absM a) fun s => 4 + s.m16) ∧
  (∀ a, claim.mem (.bitAbsX a) readsA (fun s => s.absX a) fun s => 4 + s.m16 + s.px (s.absX a))

/-- The fourteen forms of STA (R174). -/
def staForms (claim : AddrClaim) : Prop :=
  (∀ o, claim.at (.staDp o) (fun s => s.dp o) fun s => 3 + s.m16 + s.dl) ∧
  (∀ o, claim.at (.staDpX o) (fun s => s.dpX o) fun s => 4 + s.m16 + s.dl) ∧
  (∀ a, claim.at (.staAbs a) (fun s => s.absM a) fun s => 4 + s.m16) ∧
  (∀ a, claim.at (.staAbsX a) (fun s => s.absX a) fun s => 5 + s.m16) ∧
  (∀ a, claim.at (.staAbsY a) (fun s => s.absY a) fun s => 5 + s.m16) ∧
  (∀ a, claim.at (.staLong a) (fun s => s.longM a) fun s => 5 + s.m16) ∧
  (∀ a, claim.at (.staLongX a) (fun s => s.longX a) fun s => 5 + s.m16) ∧
  (∀ o, claim.at (.staDpInd o) (fun s => s.dpInd o) fun s => 5 + s.m16 + s.dl) ∧
  (∀ o, claim.at (.staDpXInd o) (fun s => s.dpXInd o) fun s => 6 + s.m16 + s.dl) ∧
  (∀ o, claim.at (.staDpIndY o) (fun s => s.dpIndY o) fun s => 6 + s.m16 + s.dl) ∧
  (∀ o, claim.at (.staDpIndLong o) (fun s => s.dpIndLong o) fun s => 6 + s.m16 + s.dl) ∧
  (∀ o, claim.at (.staDpIndLongY o) (fun s => s.dpIndLongY o) fun s => 6 + s.m16 + s.dl) ∧
  (∀ o, claim.at (.staSr o) (fun s => s.sr o) fun s => 4 + s.m16) ∧
  (∀ o, claim.at (.staSrIndY o) (fun s => s.srIndY o) fun s => 7 + s.m16)

/-- The four forms of STZ (R177). -/
def stzForms (claim : AddrClaim) : Prop :=
  (∀ o, claim.at (.stzDp o) (fun s => s.dp o) fun s => 3 + s.m16 + s.dl) ∧
  (∀ o, claim.at (.stzDpX o) (fun s => s.dpX o) fun s => 4 + s.m16 + s.dl) ∧
  (∀ a, claim.at (.stzAbs a) (fun s => s.absM a) fun s => 4 + s.m16) ∧
  (∀ a, claim.at (.stzAbsX a) (fun s => s.absX a) fun s => 5 + s.m16)

/-- The three forms of STX (R175). -/
def stxForms (claim : AddrClaim) : Prop :=
  (∀ o, claim.at (.stxDp o) (fun s => s.dp o) fun s => 3 + s.x16 + s.dl) ∧
  (∀ o, claim.at (.stxDpY o) (fun s => s.dpY o) fun s => 4 + s.x16 + s.dl) ∧
  (∀ a, claim.at (.stxAbs a) (fun s => s.absM a) fun s => 4 + s.x16)

/-- The three forms of STY (R176). -/
def styForms (claim : AddrClaim) : Prop :=
  (∀ o, claim.at (.styDp o) (fun s => s.dp o) fun s => 3 + s.x16 + s.dl) ∧
  (∀ o, claim.at (.styDpX o) (fun s => s.dpX o) fun s => 4 + s.x16 + s.dl) ∧
  (∀ a, claim.at (.styAbs a) (fun s => s.absM a) fun s => 4 + s.x16)

/-- The four memory forms of a shift, rotate, INC or DEC (R225, R226, R234). -/
def rmwForms (dp dpX : Byte → Instr) (absM absX : Word → Instr) (claim : AddrClaim) : Prop :=
  (∀ o, claim.at (dp o) (fun s => s.dp o) fun s => 5 + 2 * s.m16 + s.dl) ∧
  (∀ o, claim.at (dpX o) (fun s => s.dpX o) fun s => 6 + 2 * s.m16 + s.dl) ∧
  (∀ a, claim.at (absM a) (fun s => s.absM a) fun s => 6 + 2 * s.m16) ∧
  (∀ a, claim.at (absX a) (fun s => s.absX a) fun s => 7 + 2 * s.m16)

/-- The two forms of TRB or TSB (R231, R232). -/
def bitSetForms (dp : Byte → Instr) (absM : Word → Instr) (claim : AddrClaim) : Prop :=
  (∀ o, claim.at (dp o) (fun s => s.dp o) fun s => 5 + 2 * s.m16 + s.dl) ∧
  (∀ a, claim.at (absM a) (fun s => s.absM a) fun s => 6 + 2 * s.m16)

/-- A read-modify-write as arithmetic: the width in bits, the operand and the carry give the result and the new carry,
none where the carry is kept (R221 to R226). -/
abbrev RmwSpec := Nat → Nat → Nat → Nat × Option Bool

/-- ASL: the bits move up, the top bit into the carry (R221). -/
def aslSpec : RmwSpec := fun w v _ => (2 * v % 2 ^ w, some (decide (2 ^ w ≤ 2 * v)))

/-- LSR: the bits move down, bit 0 into the carry (R222). -/
def lsrSpec : RmwSpec := fun _ v _ => (v / 2, some (decide (v % 2 = 1)))

/-- ROL: through the carry (R223). -/
def rolSpec : RmwSpec := fun w v c => ((2 * v + c) % 2 ^ w, some (decide (2 ^ w ≤ 2 * v)))

/-- ROR: through the carry (R224). -/
def rorSpec : RmwSpec := fun w v c => (v / 2 + c * 2 ^ (w - 1), some (decide (v % 2 = 1)))

/-- INC (R225). -/
def incSpec : RmwSpec := fun w v _ => ((v + 1) % 2 ^ w, none)

/-- DEC (R226). -/
def decSpec : RmwSpec := fun w v _ => ((v + 2 ^ w - 1) % 2 ^ w, none)

/-- The result and the flags of a read-modify-write of operand `v`, from `s` to `t`. -/
def rmwResult (spec : RmwSpec) (s : State) (v : Word) : Word :=
  BitVec.ofNat 16 (spec s.wA.bits v.toNat (s.flag .c).toNat).1

/-- N, Z and C of a read-modify-write; every other flag is kept. -/
def rmwFlags (spec : RmwSpec) (s t : State) (v : Word) : Prop :=
  NZof t s.wA (rmwResult spec s v) ∧
    t.flag .c = (spec s.wA.bits v.toNat (s.flag .c).toNat).2.getD (s.flag .c) ∧ FlagsKept s t [.n, .z, .c]

end Sys2Proof.Machine
end

