-- ==== Sys2Proof/Certificates/Slice0/Obligations.lean ====
section
/-! DEFINITION. The statements for the provers. Their terms are in Sys2Proof/Safety.lean; each docstring says which rules of
spec/ it formalises and which of its clauses rest on a decision the spec marks as its own (notes/assumptions). -/

open Sys2Proof Sys2Proof.Machine

/-! ### Encoding -/

/-- Words the document itself gives (30_encoding.md R114, 95_test_vectors.md), read under the widths named. -/
def Obligations.DocumentedWordsDecode : Prop :=
  decode true true [0xA9, 0x00] = .ok (.ldaImm 0x0000, []) ∧
  decode false true [0xA9, 0x34, 0x12] = .ok (.ldaImm 0x1234, []) ∧
  decode true true [0x69, 0x01] = .ok (.adcImm 0x0001, []) ∧
  decode true true [0xF0, 0x20] = .ok (.beq 0x20, []) ∧
  decode true true [0x20, 0x34, 0x12] = .ok (.jsrAbs 0x1234, []) ∧
  decode true true [0x60] = .ok (.rts, []) ∧
  decode true true [0xC2, 0x30, 0xA9] = .ok (.rep 0x30, [0xA9]) ∧
  decode true true [0xA9, 0x34, 0x12] = .ok (.ldaImm 0x0034, [0x12])

/-- Every well-formed instruction reads back from its own bytes, whatever follows them (R100 to R105; the opcode map is
general knowledge: notes/assumptions/7.md; an immediate is held as a 16-bit word, DESIGN CHOICE: 28.md). -/
def Obligations.DecodeOfEncode : Prop :=
  ∀ (m8 x8 : Bool) (i : Instr) (rest : List Byte), i.wf m8 x8 = true →
    decode m8 x8 (encode m8 x8 i ++ rest) = .ok (i, rest)

/-- What decodes is well formed, and encodes to the bytes it was read from: one word, one instruction (R100 to R105; the
opcode map is general knowledge: notes/assumptions/7.md; an immediate is held as a 16-bit word, DESIGN CHOICE: 28.md). -/
def Obligations.EncodeOfDecode : Prop :=
  ∀ (m8 x8 : Bool) (bytes rest : List Byte) (i : Instr), decode m8 x8 bytes = .ok (i, rest) →
    i.wf m8 x8 = true ∧ encode m8 x8 i ++ rest = bytes ∧ bytes.length = i.length m8 x8 + rest.length

/-- Every byte is the opcode of one instruction (R105), of 1 to 4 bytes; the length depends on P.M and P.X for a
width-dependent immediate only, which is a byte longer at width 16 (R103, R109; the map is general knowledge:
notes/assumptions/7.md). -/
def Obligations.EveryOpcodeDecodes : Prop :=
  ∀ (op b c d : Byte) (m8 x8 : Bool), ∃ (i : Instr) (rest : List Byte),
    decode m8 x8 [op, b, c, d] = .ok (i, rest) ∧ i.opcode = op ∧ 1 ≤ i.length m8 x8 ∧ i.length m8 x8 ≤ 4 ∧
    i.length m8 x8 = i.length true true +
      (match i.operand with
       | .immM _ => if m8 then 0 else 1
       | .immX _ => if x8 then 0 else 1
       | _ => 0)

/-! ### The step -/

/-- A step that runs an instruction runs the one that decodes at PB:PC under the live P.M and P.X: `waiting` is cleared if
an IRQ ended it, PC moves past the instruction's bytes, then the handler, then EnforceModeInvariants (R104, R410, R444).
That the handler runs with PC past all the operand bytes, that the decoder is given four bytes, and that the step ends so are
the model's own reading (DEDUCED: notes/assumptions/1.md, 2.md, 31.md); that an IRQ ends WAI, masked or not, is the spec's
decision D18 (notes/assumptions/18.md). -/
def Obligations.StepRunsTheDecodedInstruction : Prop :=
  ∀ (s : State) (i : Instr) (rest : List Byte), s.Running → s.fetchOpcode ∉ s.cfg.undefinedOpcodes →
    decode (s.flag .m) (s.flag .x) s.fetchBytes = .ok (i, rest) →
    step s = mapNext State.enforceModes
      (exec i { s with waiting := false,
                       pc := s.pc + BitVec.ofNat 16 (i.length (s.flag .m) (s.flag .x)) })

/-- No step faults and none is refused (R400, R410: "always returns"; that the bytes at PB:PC always decode is DEDUCED:
notes/assumptions/30.md). -/
def Obligations.EveryStepAnswersNext : Prop := ∀ s : State, ∃ t : State, step s = .next t

/-- A stopped step changes nothing, whatever is pending; a waiting step with nothing pending changes nothing (R410, R449;
D19: notes/assumptions/38.md). -/
def Obligations.HaltedStepChangesNothing : Prop :=
  ∀ s : State, (s.stopped = true → step s = .next s) ∧
    (s.waiting = true → s.irqPending = false → s.nmiPending = false → step s = .next s)

/-- An NMI is taken before an IRQ, masked or not; an IRQ is taken when P.I = 0; each clears its own latch and runs no
instruction (R405 to R407, R410, R419). The vectors, the copy of P, the cycles, and the latches with their order are the
spec's decisions D4, D16, D20, D18 and D30 (notes/assumptions/9.md, 16.md, 38.md, 18.md). -/
def Obligations.StepTakesInterrupts : Prop :=
  ∀ s : State, s.stopped = false →
    (s.nmiPending = true → ∃ t : State, step s = .next t ∧
      Entered { s with nmiPending := false } t .nmi (if s.e then s.p &&& 0xEF else s.p) (if s.e then 0xFFFA else 0xFFEA)) ∧
    (s.nmiPending = false → s.irqPending = true → s.flag .i = false → ∃ t : State, step s = .next t ∧
      Entered { s with irqPending := false } t .irq (if s.e then s.p &&& 0xEF else s.p) (if s.e then 0xFFFE else 0xFFEE))

/-- An opcode byte of the parameter `Undefined`, reached by a running step, moves PC by one, adds one diagnostic record and 2
cycles (R107; D24: notes/assumptions/23.md), and changes nothing else, but that `waiting` is clear: a pending IRQ has ended
WAI, masked or not, before the fetch (R104, R410, R420; D18: notes/assumptions/18.md). -/
def Obligations.StepOnUndefinedOpcode : Prop :=
  ∀ s : State, s.Running → s.ModeInv → s.fetchOpcode ∈ s.cfg.undefinedOpcodes →
    step s = .next { s with waiting := false, pc := s.pc + 1,
                            diag := s.diag ++ [{ opcode := s.fetchOpcode, addr := addr24 s.pb s.pc }],
                            cycles := s.cycles + 2 }

/-! ### Traps and returns -/

/-- BRK and COP enter through their vectors, with P pushed as it stands (R268, R269, R401, R405; D4, D16, D20, and
that COP exists D2: notes/assumptions/9.md, 16.md, 38.md, 17.md). -/
def Obligations.SoftwareInterruptsEnter : Prop :=
  ∀ (s : State) (sig : Byte),
    (∃ t : State, exec (.brk sig) s = .next t ∧ Entered s t .brk s.p (if s.e then 0xFFFE else 0xFFE6)) ∧
    (∃ t : State, exec (.cop sig) s = .next t ∧ Entered s t .cop s.p (if s.e then 0xFFF4 else 0xFFE4))

/-- RTI pulls P, PC and, in native mode, PB; P goes through SetP (R267, R40; that RTI writes PB is D2, what SetP forces D22:
notes/assumptions/17.md, 33.md; cycles: 8.md). -/
def Obligations.RtiReturns : Prop :=
  ∀ s : State, ∃ t : State, exec .rti s = .next t ∧
    t = { s.after (s.charge .rti (6 + s.e0)) with p := t.p, x := t.x, y := t.y, sp := t.sp, pc := t.pc, pb := t.pb } ∧
    (∀ b : Addr, t.busRead b = s.busRead b) ∧
    t.p = (if s.e then s.pulled 1 ||| 0x30 else s.pulled 1) ∧
    t.pc = word (s.pulled 2) (s.pulled 3) ∧
    t.pb = (if s.e then s.pb else s.pulled 4) ∧
    t.sp = s.spAfterPulls (if s.e then 3 else 4) ∧
    t.x = (if t.flag .x then word (lo s.x) 0x00 else s.x) ∧
    t.y = (if t.flag .x then word (lo s.y) 0x00 else s.y)

/-- RTI right after an entry restores everything but the WAI latch, the cycles, the bytes the frame was pushed to and, in
emulation mode, PB, which the frame does not hold there: memory is what pushing the frame left, and RTI stores nothing
(R405, R409; the copy of P is D16, and that RTI restores PB in native mode D2: notes/assumptions/16.md, 17.md). -/
def Obligations.RtiUndoesEntry : Prop :=
  ∀ (s : State) (ev : TrapEvent), s.ModeInv → s.StackRoom (if s.e then 3 else 4) →
    ∃ u : State, exec .rti (s.trapEntry ev) = .next u ∧
      u = { s with pb := if s.e then 0x00 else s.pb, waiting := false, cycles := u.cycles, mem := u.mem } ∧
      Stores s u (s.pushes (s.frame (pushedP ev s.e s.p)))

/-- RTS undoes JSR, and RTL undoes JSL: the return comes back to the instruction after the call with every register and
latch as it was; only the cycles and the pushed bytes differ (R263 to R266, R270; that JSL exists is D2, its frame D17:
notes/assumptions/17.md). -/
def Obligations.ReturnUndoesCall : Prop :=
  ∀ s : State,
    (∀ a : Word, s.StackRoom 2 → ∃ t u : State, exec (.jsrAbs a) s = .next t ∧ exec .rts t = .next u ∧
      u = { s with cycles := u.cycles, mem := u.mem } ∧ Stores s u (s.pushes [hi (s.pc - 1), lo (s.pc - 1)])) ∧
    (∀ a : Addr, s.StackRoom 3 → ∃ t u : State, exec (.jsl a) s = .next t ∧ exec .rtl t = .next u ∧
      u = { s with cycles := u.cycles, mem := u.mem } ∧
      Stores s u (s.pushes [s.pb, hi (s.pc - 1), lo (s.pc - 1)]))

/-- A pull undoes its push: PHP with PLP restores P and everything but the cycles and the pushed byte, PHD with PLD and PHB
with PLB their registers, PHX and PHY with their pulls the index registers, and PHA with PLA what the width says: A.h is
cleared at width 8; SP comes back in every pair (R290 to R303; PHP pushes P as it stands, D34: notes/assumptions/35.md). -/
def Obligations.PullUndoesPush : Prop :=
  ∀ s : State, s.ModeInv → s.StackRoom 2 →
    (∃ t u : State, exec .pha s = .next t ∧ exec .pla t = .next u ∧ u.sp = s.sp ∧
      u.a = (if s.flag .m then word (lo s.a) 0x00 else s.a)) ∧
    (∃ t u : State, exec .phx s = .next t ∧ exec .plx t = .next u ∧ u.sp = s.sp ∧ u.x = s.x) ∧
    (∃ t u : State, exec .phy s = .next t ∧ exec .ply t = .next u ∧ u.sp = s.sp ∧ u.y = s.y) ∧
    (∃ t u : State, exec .php s = .next t ∧ exec .plp t = .next u ∧
      u = { s with cycles := u.cycles, mem := u.mem } ∧ Stores s u (s.pushes [s.p])) ∧
    (∃ t u : State, exec .phb s = .next t ∧ exec .plb t = .next u ∧ u.sp = s.sp ∧ u.db = s.db) ∧
    (∃ t u : State, exec .phd s = .next t ∧ exec .pld t = .next u ∧ u.sp = s.sp ∧ u.d = s.d)

/-! ### Reset and the invariants -/

/-- What `reset()` leaves, called in any state (R440, R42): the values of D, DB, PB, P and the two interrupt latches are
the spec's decisions D3 and D18 (notes/assumptions/10.md, 18.md); memory and the parameters survive, and so does the
diagnostic list, of which the spec says nothing (DEDUCED: notes/assumptions/32.md). At power-on the stored bytes hold the
parameter WRAM_INIT, and every 128 KiB of bytes is such a parameter under MinimalMap (R65, the spec's decision D25: 3.md);
that reset() there is the same reset, on an empty diagnostic list, is 32.md again. The model's first state is power-on with
the default parameters (PRESUMED: notes/assumptions/6.md, 8.md), an empty cartridge and no byte of WRAM_INIT listed (DESIGN
CHOICE: notes/assumptions/3.md, 5.md), so PC = 0x0000 (R441). -/
def Obligations.ResetLeaves : Prop :=
  (∀ s : State, s.hostReset =
    { a := 0x0000, x := 0x0000, y := 0x0000, sp := 0x01FF,
      pc := word (s.busRead 0x00FFFC) (s.busRead 0x00FFFD),
      pb := 0x00, db := 0x00, d := 0x0000, p := 0x34, e := true, stopped := false, waiting := false,
      irqPending := false, nmiPending := false, cycles := 0, diag := s.diag, mem := s.mem, cfg := s.cfg }) ∧
  (∀ cfg : Config,
    (State.powerOn cfg).hostReset = State.powerOn cfg ∧ (State.powerOn cfg).cfg = cfg ∧ (State.powerOn cfg).diag = [] ∧
    (∀ a : Addr, Memory.read (State.powerOn cfg).mem a.toNat = Memory.read cfg.wramInit a.toNat) ∧
    (cfg.bus = minimalMap → ∀ w : Fin 131072 → Byte, ∃ cells : List Host.Cell, ∀ (a : Addr) (k : Fin 131072),
      wramIndex a = some k.val → (State.powerOn { cfg with wramInit := cells }).busRead a = w k)) ∧
  State.reset = State.powerOn defaultConfig ∧ State.reset.pc = 0x0000 ∧ State.reset.mem = []

/-- The state after reset satisfies the invariant of every run, and so does the state after power-on for all parameters,
WRAM_INIT among them (R41, R65, R417; the canonical form of memory is the model's own, DESIGN CHOICE:
notes/assumptions/3.md). -/
def Obligations.ResetSatisfiesInv : Prop := State.reset.Inv ∧ ∀ cfg : Config, (State.powerOn cfg).Inv

/-- Every instruction runs to a next state and keeps the mode invariants: E = 1 forces P.M, P.X and SP.h, and P.X = 1 forces
X.h and Y.h (R41 items 1 and 2). So the EnforceModeInvariants at the end of a step changes nothing (R410; which
writes force the invariants is D21 and D22: notes/assumptions/33.md). -/
def Obligations.InstructionsKeepModeInv : Prop :=
  ∀ (i : Instr) (s : State), s.ModeInv → ∃ t : State, exec i s = .next t ∧ t.ModeInv

/-- Every step keeps the invariant: the mode invariants (R41), the canonical form of memory (the model's own, DESIGN CHOICE:
notes/assumptions/3.md), and at most one halt latch (R417). -/
def Obligations.StepKeepsInv : Prop := ∀ s t : State, s.Inv → step s = .next t → t.Inv

/-- So does every move of the host or of another bus agent (R41, R43, R84, R411, R440). For write_register it holds by the
spec's decision D27: the value is truncated to the register and EnforceModeInvariants runs after the write, over ten names
(notes/assumptions/26.md); that the moves stand outside the step is DEDUCED (notes/assumptions/32.md). -/
def Obligations.HostMovesKeepInv : Prop :=
  ∀ s : State, s.Inv → s.hostReset.Inv ∧ s.raiseIrq.Inv ∧ s.raiseNmi.Inv ∧
    (∀ (a : Addr) (v : Byte), (s.busPoke a v).Inv) ∧ ∀ (r : RegName) (n : Nat), (s.writeRegister r n).Inv

/-- Which instructions write the control state: PB, DB, D, E and the halt latches have the writers that R24, R25, R35 and
R36 list, and no instruction writes the interrupt latches, the diagnostic list or the parameters (R38, R107). That COP,
JML, JSL and RTI write PB is the spec's decision D2 (notes/assumptions/17.md); that the parameters stand in the state is
DESIGN CHOICE (notes/assumptions/4.md). -/
def Obligations.WritersOfControlState : Prop :=
  ∀ (i : Instr) (s t : State), exec i s = .next t →
    t.irqPending = s.irqPending ∧ t.nmiPending = s.nmiPending ∧ t.diag = s.diag ∧ t.cfg = s.cfg ∧
    (t.pb ≠ s.pb → (∃ a, i = .jmlLong a) ∨ (∃ a, i = .jmlAbsIndLong a) ∨ (∃ a, i = .jsl a) ∨ i = .rtl ∨
      (i = .rti ∧ s.e = false) ∨ (∃ b, i = .brk b) ∨ ∃ b, i = .cop b) ∧
    (t.db ≠ s.db → i = .plb ∨ (∃ x y, i = .mvn x y) ∨ ∃ x y, i = .mvp x y) ∧
    (t.d ≠ s.d → i = .tcd ∨ i = .pld) ∧
    (t.e ≠ s.e → i = .xce) ∧
    (t.stopped ≠ s.stopped → i = .stp) ∧
    (t.waiting ≠ s.waiting → i = .wai ∨ (∃ b, i = .brk b) ∨ ∃ b, i = .cop b)

/-- Every instruction adds what its opcode's row of the parameter BaseCycles says, evaluated with P and E at dispatch: a
positive number for every table with positive constants, and from 2 to 9 with the table of R111 (R37, R41 item 3, R110, R111;
D5, the numbers of the table are general knowledge: notes/assumptions/8.md). -/
def Obligations.InstructionsAdvanceCycles : Prop :=
  ∀ (i : Instr) (s : State), ∃ (t : State) (pen : Penalty) (n : Nat), exec i s = .next t ∧
    t.cycles = s.cycles + BitVec.ofNat 64 n ∧
    n = cycleValue (s.cfg.baseCycles.row i.opcode) s pen ∧
    (s.cfg.baseCycles.wf → 1 ≤ n) ∧ (s.cfg.baseCycles = defaultCycles → 2 ≤ n ∧ n ≤ 9)

/-- With P.M = 1, no instruction changes A.h but XBA, TDC, TSC, MVN and MVP, which use all of A whatever P.M is, and PLA,
which clears it (R20, R41 item 5; TXA and TYA by D14: notes/assumptions/13.md). -/
def Obligations.HighAccumulatorByteKept : Prop :=
  ∀ (i : Instr) (s t : State), s.flag .m = true → exec i s = .next t →
    (i = .pla → hi t.a = 0x00) ∧
    (hi t.a ≠ hi s.a → i = .pla ∨ i = .xba ∨ i = .tdc ∨ i = .tsc ∨ (∃ x y, i = .mvn x y) ∨ ∃ x y, i = .mvp x y)

/-! ### Memory -/

/-- A bus read after a bus write: at the byte addressed what the write leaves there, which is the byte written where the
address is a read/write byte, and elsewhere what it was; the write changes nothing but memory (R61, R78). Under FlatTestBus
every address is a read/write byte of its own (R66). Any bus is meant, a platform's registers included, whose writes may leave
another byte than the one written (D25; the bus as data is DESIGN CHOICE: notes/assumptions/4.md, 39.md). -/
def Obligations.BusReadAfterWrite : Prop :=
  ∀ (s : State) (a b : Addr) (v : Byte),
    (s.busWrite a v).busRead b = (if s.sameByte a b then s.stored a v else s.busRead b) ∧
    (s.writable a = true → s.home a ≠ none ∧ s.stored a v = v) ∧
    s.busWrite a v = { s with mem := (s.busWrite a v).mem } ∧
    (s.cfg.bus = flatTestBus → s.writable a = true ∧ (s.sameByte a b ↔ b = a))

/-- MinimalMap (R62): a write to WRAM, at its own address or at the mirror's, is read at every address of that byte and
nowhere else, and the two addresses of a mirrored byte always read alike; ROM reads at the low 23 bits modulo ROM_SIZE and
discards writes; everything else reads 0x00 and discards writes. -/
def Obligations.MinimalMapLayout : Prop :=
  ∀ s : State, s.cfg.bus = minimalMap →
    (∀ (a b : Addr) (k : Nat) (v : Byte), wramIndex a = some k →
      (s.busWrite a v).busRead b = (if wramIndex b = some k then v else s.busRead b) ∧
      (wramIndex b = some k → s.busRead b = s.busRead a)) ∧
    (∀ a : Addr, 0x800000 ≤ a.toNat →
      (0 < s.cfg.romSize → s.busRead a = Memory.read s.cfg.rom (a.toNat % 2 ^ 23 % s.cfg.romSize)) ∧
      ∀ v : Byte, s.busWrite a v = s) ∧
    ∀ a : Addr, 0x002000 ≤ a.toNat → a.toNat < 0x7E0000 → s.busRead a = 0x00 ∧ ∀ v : Byte, s.busWrite a v = s

/-- Byte order and the two ways an address is incremented: linear accesses in 24 bits, bank-wrapped ones in 16 bits inside
the bank (R67 to R69; which mode uses which is D9, the 24-bit wrap D26: notes/assumptions/19.md, 25.md). -/
def Obligations.MultiByteAccess : Prop :=
  ∀ (s : State) (ea : Ea),
    (s.readOp ea .w8).toNat = (s.busRead ea.addr).toNat ∧
    (s.readOp ea .w16).toNat = (s.busRead ea.addr).toNat + 256 * (s.busRead ea.next).toNat ∧
    (s.memRead24 ea.addr).toNat = (s.busRead ea.addr).toNat + 256 * (s.busRead (ea.addr + 1)).toNat +
      65536 * (s.busRead (ea.addr + 2)).toNat ∧
    (ea.wrap = .lin → ea.next.toNat = (ea.addr.toNat + 1) % 2 ^ 24) ∧
    (ea.wrap = .b0 → ea.next.toNat = ea.addr.toNat / 65536 * 65536 + (ea.addr.toNat % 65536 + 1) % 65536)

/-- An operand written to read/write memory reads back (R67 to R69, R85); the accesses of a width are its bytes. -/
def Obligations.OperandReadsBack : Prop :=
  ∀ (s : State) (ea : Ea) (w : Width) (v : Word),
    s.writeOp ea w v = { s with mem := (s.writeOp ea w v).mem } ∧ Stores s (s.writeOp ea w v) (ea.bytes w v) ∧
    (s.writable ea.addr = true →
      (w = .w16 → s.writable ea.next = true ∧ s.home ea.addr ≠ s.home ea.next) →
      ((s.writeOp ea w v).readOp ea w).toNat = v.toNat % 2 ^ w.bits)

/-- One byte of stack (R71): a push stores at 00:SP and then lowers SP, a pull raises SP and then reads; SP wraps in 16
bits, in emulation mode inside page 1 (that no instruction is exempt is D11: notes/assumptions/20.md). -/
def Obligations.StackOneByte : Prop :=
  ∀ (s : State) (v : Byte),
    s.push8 v = { s with sp := (s.push8 v).sp, mem := (s.push8 v).mem } ∧
    Stores s (s.push8 v) [(addr24 0x00 s.sp, v)] ∧
    (s.push8 v).sp.toNat =
      (if s.e then 0x0100 + (s.sp.toNat % 256 + 255) % 256 else (s.sp.toNat + 65535) % 65536) ∧
    s.pull8.2 = { s with sp := s.pull8.2.sp } ∧
    s.pull8.1 = s.busRead (addr24 0x00 s.pull8.2.sp) ∧
    s.pull8.2.sp.toNat = (if s.e then 0x0100 + (s.sp.toNat % 256 + 1) % 256 else (s.sp.toNat + 1) % 65536)

/-- Two bytes of stack (R72): the high byte is pushed first, so the low byte lies at the lower address, and the word reads
back. -/
def Obligations.StackTwoBytes : Prop :=
  ∀ (s : State) (v : Word),
    s.push16 v = (s.push8 (hi v)).push8 (lo v) ∧
    s.pull16 = (word s.pull8.1 s.pull8.2.pull8.1, s.pull8.2.pull8.2) ∧
    Stores s (s.push16 v) (s.pushes [hi v, lo v]) ∧ (s.push16 v).sp = s.spAfterPushes 2 ∧
    s.pull16.1 = word (s.pulled 1) (s.pulled 2) ∧ s.pull16.2 = { s with sp := s.spAfterPulls 2 } ∧
    (s.StackRoom 2 → (s.push16 v).pull16.1 = v ∧ (s.push16 v).pull16.2.sp = s.sp)

/-! ### The addressing modes -/

/-- Direct page and stack relative (R137 to R139, R145, R156): the sum modulo 2^16, in bank 0, bank-wrapped; the penalty when
D.l is not zero (no emulation-mode page wrap D10, stack relative D12: notes/assumptions/20.md, 19.md). -/
def Obligations.BankZeroAddresses : Prop :=
  ∀ (s : State) (o : Byte),
    (s.dp o).ea.addr.toNat = (s.d.toNat + o.toNat) % 65536 ∧
    (s.dpX o).ea.addr.toNat = (s.d.toNat + o.toNat + s.x.toNat) % 65536 ∧
    (s.dpY o).ea.addr.toNat = (s.d.toNat + o.toNat + s.y.toNat) % 65536 ∧
    (s.sr o).ea.addr.toNat = (s.sp.toNat + o.toNat) % 65536 ∧
    (∀ r ∈ [s.dp o, s.dpX o, s.dpY o], r.ea.wrap = .b0 ∧ r.px = false ∧ (r.dl = true ↔ s.d.toNat % 256 ≠ 0)) ∧
    (s.sr o).ea.wrap = .b0 ∧ (s.sr o).px = false ∧ (s.sr o).dl = false

/-- Absolute modes (R132 to R136): DB:a, and sums in 24 bits that can carry into the next bank (D8, D26:
notes/assumptions/19.md, 25.md). The page-crossing signal is that of the low byte and the whole index (R155, D6:
notes/assumptions/21.md), which is the page of the untruncated sum differing from the base's. -/
def Obligations.AbsoluteAddresses : Prop :=
  ∀ (s : State) (a : Word) (l : Addr),
    (s.absM a).ea.addr.toNat = s.db.toNat * 65536 + a.toNat ∧
    (s.absX a).ea.addr.toNat = (s.db.toNat * 65536 + a.toNat + s.x.toNat) % 2 ^ 24 ∧
    (s.absY a).ea.addr.toNat = (s.db.toNat * 65536 + a.toNat + s.y.toNat) % 2 ^ 24 ∧
    (s.longM l).ea.addr = l ∧
    (s.longX l).ea.addr.toNat = (l.toNat + s.x.toNat) % 2 ^ 24 ∧
    (∀ r ∈ [s.absM a, s.absX a, s.absY a, s.longM l, s.longX l], r.ea.wrap = .lin ∧ r.dl = false) ∧
    ((s.absX a).px = true ↔ 0x100 ≤ a.toNat % 256 + s.x.toNat) ∧
    ((s.absY a).px = true ↔ (a.toNat + s.y.toNat) / 256 ≠ a.toNat / 256) ∧
    (s.absM a).px = false ∧ (s.longM l).px = false ∧ (s.longX l).px = false

/-- Indirect modes (R140 to R144, R146): a 16-bit or 24-bit pointer in bank 0, its bytes bank-wrapped; the data in bank DB or
in the pointer's bank; Y added in 24 bits (D8, D9, D12: notes/assumptions/19.md). -/
def Obligations.IndirectAddresses : Prop :=
  ∀ (s : State) (o : Byte) (p q r : Word), p.toNat = (s.d.toNat + o.toNat) % 65536 →
    q.toNat = (s.d.toNat + o.toNat + s.x.toNat) % 65536 → r.toNat = (s.sp.toNat + o.toNat) % 65536 →
    (s.dpInd o).ea.addr = addr24 s.db (s.wordAt 0x00 p) ∧
    (s.dpIndLong o).ea.addr = s.longAt p ∧
    (s.dpXInd o).ea.addr = addr24 s.db (s.wordAt 0x00 q) ∧
    (s.dpIndY o).ea.addr.toNat = (s.db.toNat * 65536 + (s.wordAt 0x00 p).toNat + s.y.toNat) % 2 ^ 24 ∧
    (s.dpIndLongY o).ea.addr.toNat = ((s.longAt p).toNat + s.y.toNat) % 2 ^ 24 ∧
    (s.srIndY o).ea.addr.toNat = (s.db.toNat * 65536 + (s.wordAt 0x00 r).toNat + s.y.toNat) % 2 ^ 24 ∧
    (∀ m ∈ [s.dpInd o, s.dpIndLong o, s.dpXInd o, s.dpIndY o, s.dpIndLongY o],
      m.ea.wrap = .lin ∧ (m.dl = true ↔ s.d.toNat % 256 ≠ 0)) ∧
    ((s.dpIndY o).px = true ↔ 0x100 ≤ (s.wordAt 0x00 p).toNat % 256 + s.y.toNat) ∧
    (s.dpInd o).px = false ∧ (s.dpIndLong o).px = false ∧ (s.dpXInd o).px = false ∧ (s.dpIndLongY o).px = false ∧
    (s.srIndY o).ea.wrap = .lin ∧ (s.srIndY o).dl = false ∧ (s.srIndY o).px = false

/-! ### Flags and the adders -/

/-- SetNZ (R9): N is the top bit of the active width, Z whether the active-width value is zero, and nothing else is
written. -/
def Obligations.SetNZWritesNAndZ : Prop :=
  ∀ (s : State) (w : Width) (v : Word),
    s.setNZ w v = { s with p := (s.setNZ w v).p } ∧
    (s.setNZ w v).flag .n = v.getLsbD (w.bits - 1) ∧
    ((s.setNZ w v).flag .z = true ↔ v.toNat % 2 ^ w.bits = 0) ∧
    FlagsKept s (s.setNZ w v) [.n, .z]

/-- SetP (R39, R40): the byte, with P.M and P.X forced in emulation mode, SP.h forced there, and X.h and Y.h cleared when
P.X ends up 1; A is never changed. The mode invariants hold afterwards whatever the state was (D21, D22:
notes/assumptions/33.md). -/
def Obligations.SetPWritesP : Prop :=
  ∀ (s : State) (v : Byte), (s.setP v).ModeInv ∧
    s.setP v = { s with
      p := if s.e then v ||| 0x30 else v
      sp := if s.e then word (lo s.sp) 0x01 else s.sp
      x := if (s.setP v).flag .x then word (lo s.x) 0x00 else s.x
      y := if (s.setP v).flag .x then word (lo s.y) 0x00 else s.y }

/-- The binary adders (R190, R192, R203): the sum or difference modulo 2^w, the carry, the signed overflow, and that
subtracting is adding the complement (the overflow formulas are general knowledge: notes/assumptions/11.md). -/
def Obligations.BinaryAdders : Prop :=
  ∀ (w : Width) (a m : Word) (c : Bool), a.toNat < 2 ^ w.bits → m.toNat < 2 ^ w.bits →
    (adcBin w a m c).r.toNat = (a.toNat + m.toNat + c.toNat) % 2 ^ w.bits ∧
    ((adcBin w a m c).c = true ↔ 2 ^ w.bits ≤ a.toNat + m.toNat + c.toNat) ∧
    ((adcBin w a m c).v = true ↔
      w.signed a + w.signed m + c.toNat < -2 ^ (w.bits - 1) ∨ 2 ^ (w.bits - 1) ≤ w.signed a + w.signed m + c.toNat) ∧
    ((sbcBin w a m c).r.toNat : Int) = ((a.toNat : Int) - m.toNat - (1 - c.toNat)) % 2 ^ w.bits ∧
    ((sbcBin w a m c).c = true ↔ m.toNat + 1 ≤ a.toNat + c.toNat) ∧
    ((sbcBin w a m c).v = true ↔
      w.signed a - w.signed m - (1 - c.toNat) < -2 ^ (w.bits - 1) ∨
        2 ^ (w.bits - 1) ≤ w.signed a - w.signed m - (1 - c.toNat)) ∧
    sbcBin w a m c = adcBin w a (w.trunc (~~~m)) c

/-- Decimal addition (R191, D13: notes/assumptions/12.md): of valid decimal operands, the decimal sum with its carry, in
valid digits; the overflow is the binary one, and the result fits the width, whatever the operands. -/
def Obligations.DecimalAdd : Prop :=
  ∀ (w : Width) (a m : Word) (c : Bool),
    (adcDec w a m c).v = (adcBin w a m c).v ∧ (adcDec w a m c).r.toNat < 2 ^ w.bits ∧
    (validBcd a (w.bits / 4) → validBcd m (w.bits / 4) →
      validBcd (adcDec w a m c).r (w.bits / 4) ∧
      bcdValue (adcDec w a m c).r (w.bits / 4) =
        (bcdValue a (w.bits / 4) + bcdValue m (w.bits / 4) + c.toNat) % 10 ^ (w.bits / 4) ∧
      ((adcDec w a m c).c = true ↔
        10 ^ (w.bits / 4) ≤ bcdValue a (w.bits / 4) + bcdValue m (w.bits / 4) + c.toNat))

/-- Decimal subtraction (R193, D13: notes/assumptions/12.md): of valid decimal operands, the decimal difference with its
borrow, in valid digits; overflow and carry are those of the binary subtraction. -/
def Obligations.DecimalSubtract : Prop :=
  ∀ (w : Width) (a m : Word) (c : Bool),
    (sbcDec w a m c).v = (sbcBin w a m c).v ∧ (sbcDec w a m c).r.toNat < 2 ^ w.bits ∧
    (a.toNat < 2 ^ w.bits → m.toNat < 2 ^ w.bits → (sbcDec w a m c).c = (sbcBin w a m c).c) ∧
    (validBcd a (w.bits / 4) → validBcd m (w.bits / 4) →
      validBcd (sbcDec w a m c).r (w.bits / 4) ∧
      (bcdValue (sbcDec w a m c).r (w.bits / 4) : Int) =
        ((bcdValue a (w.bits / 4) : Int) - bcdValue m (w.bits / 4) - (1 - c.toNat)) % 10 ^ (w.bits / 4) ∧
      ((sbcDec w a m c).c = true ↔
        bcdValue m (w.bits / 4) + 1 ≤ bcdValue a (w.bits / 4) + c.toNat))

/-! ### Loads and stores -/

/-- LDA (R171, R170), all fifteen forms: A at width wA, A.h kept at width 8, N and Z of the operand; the cycles are general
knowledge (notes/assumptions/8.md). -/
def Obligations.LdaLoads : Prop :=
  accumulatorReads .ldaImm .ldaDp .ldaDpX .ldaAbs .ldaAbsX .ldaAbsY .ldaLong .ldaLongX .ldaDpInd .ldaDpXInd .ldaDpIndY
    .ldaDpIndLong .ldaDpIndLongY .ldaSr .ldaSrIndY fun i operand cost =>
    ∀ s : State, ∃ t : State, exec i s = .next t ∧
      t = { s.after (cost s) with a := t.a, p := t.p } ∧ (∀ b : Addr, t.busRead b = s.busRead b) ∧
      t.a = (if s.flag .m then word (lo (operand s)) (hi s.a) else operand s) ∧
      NZof t s.wA (operand s) ∧ FlagsKept s t [.n, .z]

/-- LDX and LDY (R172, R173), all ten forms: the operand at width wX, zero-extended, N and Z (cycles:
notes/assumptions/8.md). -/
def Obligations.LdxLdyLoad : Prop :=
  ldxForms (fun i operand cost => ∀ s : State, ∃ t : State, exec i s = .next t ∧
    t = { s.after (cost s) with x := operand s, p := t.p } ∧ (∀ b : Addr, t.busRead b = s.busRead b) ∧
    (s.flag .x = true → hi t.x = 0x00) ∧ NZof t s.wX (operand s) ∧ FlagsKept s t [.n, .z]) ∧
  ldyForms (fun i operand cost => ∀ s : State, ∃ t : State, exec i s = .next t ∧
    t = { s.after (cost s) with y := operand s, p := t.p } ∧ (∀ b : Addr, t.busRead b = s.busRead b) ∧
    (s.flag .x = true → hi t.y = 0x00) ∧ NZof t s.wX (operand s) ∧ FlagsKept s t [.n, .z])

/-- STA, STZ, STX and STY (R174 to R177), all twenty-four forms: the register's low bytes, or zero, at the mode's address,
low byte first; no register and no flag changes (cycles: notes/assumptions/8.md). -/
def Obligations.StoresStore : Prop :=
  staForms (fun i ea cost => ∀ s : State, ∃ t : State, exec i s = .next t ∧
    t = { s.after (cost s) with mem := t.mem } ∧ Stores s t ((ea s).bytes s.wA s.a)) ∧
  stzForms (fun i ea cost => ∀ s : State, ∃ t : State, exec i s = .next t ∧
    t = { s.after (cost s) with mem := t.mem } ∧ Stores s t ((ea s).bytes s.wA 0x0000)) ∧
  stxForms (fun i ea cost => ∀ s : State, ∃ t : State, exec i s = .next t ∧
    t = { s.after (cost s) with mem := t.mem } ∧ Stores s t ((ea s).bytes s.wX s.x)) ∧
  styForms (fun i ea cost => ∀ s : State, ∃ t : State, exec i s = .next t ∧
    t = { s.after (cost s) with mem := t.mem } ∧ Stores s t ((ea s).bytes s.wX s.y))

/-! ### Arithmetic, logic, comparison -/

/-- ADC and SBC (R194, R195), all thirty forms: the binary or, when P.D = 1, the decimal adder of A at width wA, the operand
and the carry; A.h kept at width 8; N, Z, C and V. What V is rests on the overflow formulas, general knowledge (PRESUMED:
notes/assumptions/11.md), and the decimal results and their C and V on the digit loops, the spec's decision D13
(notes/assumptions/12.md); cycles: 8.md. -/
def Obligations.AdcSbcAdd : Prop :=
  let claim : (Width → Word → Word → Bool → AluOut) → (Width → Word → Word → Bool → AluOut) → ReadClaim :=
    fun bin dec i operand cost => ∀ s : State, ∃ t : State, exec i s = .next t ∧
      t = { s.after (cost s) with a := t.a, p := t.p } ∧ (∀ b : Addr, t.busRead b = s.busRead b) ∧
      ∃ o : AluOut, o = (if s.flag .d then dec else bin) s.wA (s.wA.trunc s.a) (operand s) (s.flag .c) ∧
        t.a = (if s.flag .m then word (lo o.r) (hi s.a) else o.r) ∧
        t.flag .c = o.c ∧ t.flag .v = o.v ∧ NZof t s.wA o.r ∧ FlagsKept s t [.n, .z, .c, .v]
  accumulatorReads .adcImm .adcDp .adcDpX .adcAbs .adcAbsX .adcAbsY .adcLong .adcLongX .adcDpInd .adcDpXInd .adcDpIndY
    .adcDpIndLong .adcDpIndLongY .adcSr .adcSrIndY (claim adcBin adcDec) ∧
  accumulatorReads .sbcImm .sbcDp .sbcDpX .sbcAbs .sbcAbsX .sbcAbsY .sbcLong .sbcLongX .sbcDpInd .sbcDpXInd .sbcDpIndY
    .sbcDpIndLong .sbcDpIndLongY .sbcSr .sbcSrIndY (claim sbcBin sbcDec)

/-- AND, ORA and EOR (R196 to R198, R204), all forty-five forms: bit by bit, A.h kept at width 8, N and Z of the result, C and
V kept (cycles: notes/assumptions/8.md). -/
def Obligations.LogicInstructions : Prop :=
  let claim : (Word → Word → Word) → ReadClaim :=
    fun op i operand cost => ∀ s : State, ∃ t : State, exec i s = .next t ∧
      t = { s.after (cost s) with a := t.a, p := t.p } ∧ (∀ b : Addr, t.busRead b = s.busRead b) ∧
      t.a = (if s.flag .m then word (lo (op s.a (operand s))) (hi s.a) else op s.a (operand s)) ∧
      NZof t s.wA (op s.a (operand s)) ∧ FlagsKept s t [.n, .z]
  accumulatorReads .andImm .andDp .andDpX .andAbs .andAbsX .andAbsY .andLong .andLongX .andDpInd .andDpXInd .andDpIndY
    .andDpIndLong .andDpIndLongY .andSr .andSrIndY (claim (· &&& ·)) ∧
  accumulatorReads .oraImm .oraDp .oraDpX .oraAbs .oraAbsX .oraAbsY .oraLong .oraLongX .oraDpInd .oraDpXInd .oraDpIndY
    .oraDpIndLong .oraDpIndLongY .oraSr .oraSrIndY (claim (· ||| ·)) ∧
  accumulatorReads .eorImm .eorDp .eorDpX .eorAbs .eorAbsX .eorAbsY .eorLong .eorLongX .eorDpInd .eorDpXInd .eorDpIndY
    .eorDpIndLong .eorDpIndLongY .eorSr .eorSrIndY (claim (· ^^^ ·))

/-- CMP, CPX and CPY (R199 to R201), all twenty-one forms: C of the unsigned comparison, Z of equality, N the top bit of
the wrapped difference; no register changes and V is kept (cycles: notes/assumptions/8.md). -/
def Obligations.CompareInstructions : Prop :=
  let claim : (State → Word) → (State → Width) → ReadClaim :=
    fun reg width i operand cost => ∀ s : State, ∃ t : State, exec i s = .next t ∧
      t = { s.after (cost s) with p := t.p } ∧ (∀ b : Addr, t.busRead b = s.busRead b) ∧
      ∃ r : Nat, r = (reg s).toNat % 2 ^ (width s).bits ∧
        (t.flag .c = true ↔ (operand s).toNat ≤ r) ∧
        (t.flag .z = true ↔ r = (operand s).toNat) ∧
        (t.flag .n = true ↔
          2 ^ ((width s).bits - 1) ≤ (r + 2 ^ (width s).bits - (operand s).toNat) % 2 ^ (width s).bits) ∧
        FlagsKept s t [.n, .z, .c]
  accumulatorReads .cmpImm .cmpDp .cmpDpX .cmpAbs .cmpAbsX .cmpAbsY .cmpLong .cmpLongX .cmpDpInd .cmpDpXInd .cmpDpIndY
    .cmpDpIndLong .cmpDpIndLongY .cmpSr .cmpSrIndY (claim (fun s => s.a) State.wA) ∧
  indexCompares .cpxImm .cpxDp .cpxAbs (claim (fun s => s.x) State.wX) ∧
  indexCompares .cpyImm .cpyDp .cpyAbs (claim (fun s => s.y) State.wX)

/-- BIT (R202): Z of A and the operand; the memory forms write N and V from the operand's top two bits, the immediate form
does not (at width 16 these are bits 15 and 14, D28: notes/assumptions/34.md; cycles: 8.md). -/
def Obligations.BitTests : Prop :=
  bitMemoryForms (fun i operand cost => ∀ s : State, ∃ t : State, exec i s = .next t ∧
    t = { s.after (cost s) with p := t.p } ∧ (∀ b : Addr, t.busRead b = s.busRead b) ∧
    (t.flag .z = true ↔ (s.a &&& operand s).toNat % 2 ^ s.wA.bits = 0) ∧
    t.flag .n = (operand s).getLsbD (s.wA.bits - 1) ∧ t.flag .v = (operand s).getLsbD (s.wA.bits - 2) ∧
    FlagsKept s t [.n, .v, .z]) ∧
  ∀ (v : Word) (s : State), ∃ t : State, exec (.bitImm v) s = .next t ∧
    t = { s.after (s.charge (.bitImm v) (2 + s.m16)) with p := t.p } ∧ (∀ b : Addr, t.busRead b = s.busRead b) ∧
    (t.flag .z = true ↔ (s.a &&& v).toNat % 2 ^ s.wA.bits = 0) ∧ FlagsKept s t [.z]

/-! ### Read-modify-write -/

/-- ASL, LSR, ROL, ROR, INC and DEC of the accumulator (R220 to R226): A at width wA, A.h kept at width 8, N and Z of the
result, C the bit shifted out and kept by INC and DEC (cycles: notes/assumptions/8.md). -/
def Obligations.AccumulatorModify : Prop :=
  ∀ f ∈ ([(.aslAcc, aslSpec), (.lsrAcc, lsrSpec), (.rolAcc, rolSpec), (.rorAcc, rorSpec), (.incAcc, incSpec),
      (.decAcc, decSpec)] : List (Instr × RmwSpec)),
    ∀ s : State, ∃ t : State, exec f.1 s = .next t ∧
      t = { s.after (s.charge f.1 2) with a := t.a, p := t.p } ∧ (∀ b : Addr, t.busRead b = s.busRead b) ∧
      t.a = (if s.flag .m then word (lo (rmwResult f.2 s (s.wA.trunc s.a))) (hi s.a)
             else rmwResult f.2 s (s.wA.trunc s.a)) ∧
      rmwFlags f.2 s t (s.wA.trunc s.a)

/-- ASL, LSR, ROL, ROR, INC and DEC of memory (R220 to R226, R234), all twenty-four forms: the operand at the mode's address is
replaced by the result, which gives N, Z and C as in the accumulator form; no register changes (cycles:
notes/assumptions/8.md). -/
def Obligations.MemoryModify : Prop :=
  let claim : RmwSpec → AddrClaim := fun spec i ea cost => ∀ s : State, ∃ t : State, exec i s = .next t ∧
    t = { s.after (cost s) with p := t.p, mem := t.mem } ∧
    Stores s t ((ea s).bytes s.wA (rmwResult spec s (s.readOp (ea s) s.wA))) ∧
    rmwFlags spec s t (s.readOp (ea s) s.wA)
  rmwForms .aslDp .aslDpX .aslAbs .aslAbsX (claim aslSpec) ∧
  rmwForms .lsrDp .lsrDpX .lsrAbs .lsrAbsX (claim lsrSpec) ∧
  rmwForms .rolDp .rolDpX .rolAbs .rolAbsX (claim rolSpec) ∧
  rmwForms .rorDp .rorDpX .rorAbs .rorAbsX (claim rorSpec) ∧
  rmwForms .incDp .incDpX .incAbs .incAbsX (claim incSpec) ∧
  rmwForms .decDp .decDpX .decAbs .decAbsX (claim decSpec)

/-- INX, INY, DEX and DEY (R227 to R230): the index register stepped at width wX, its high byte zero at width 8, N and Z
(cycles: notes/assumptions/8.md). -/
def Obligations.IndexStep : Prop :=
  ∀ s : State,
    (∀ f ∈ ([(.inx, 1), (.dex, 65535)] : List (Instr × Nat)), ∃ t : State, exec f.1 s = .next t ∧
      t = { s.after (s.charge f.1 2) with x := t.x, p := t.p } ∧ (∀ b : Addr, t.busRead b = s.busRead b) ∧
      t.x.toNat = (s.x.toNat + f.2) % 2 ^ s.wX.bits ∧ NZof t s.wX t.x ∧ FlagsKept s t [.n, .z]) ∧
    (∀ f ∈ ([(.iny, 1), (.dey, 65535)] : List (Instr × Nat)), ∃ t : State, exec f.1 s = .next t ∧
      t = { s.after (s.charge f.1 2) with y := t.y, p := t.p } ∧ (∀ b : Addr, t.busRead b = s.busRead b) ∧
      t.y.toNat = (s.y.toNat + f.2) % 2 ^ s.wX.bits ∧ NZof t s.wX t.y ∧ FlagsKept s t [.n, .z])

/-- TRB and TSB (R231, R232): Z of the test, the operand with the bits of A cleared or set, no other flag and no register
(the operation is general knowledge, G6: notes/assumptions/14.md; cycles: 8.md). -/
def Obligations.BitResetAndSet : Prop :=
  let claim : (Word → Word → Word) → AddrClaim := fun op i ea cost => ∀ s : State, ∃ t : State, exec i s = .next t ∧
    t = { s.after (cost s) with p := t.p, mem := t.mem } ∧
    Stores s t ((ea s).bytes s.wA (op (s.readOp (ea s) s.wA) s.a)) ∧
    (t.flag .z = true ↔ (s.a &&& s.readOp (ea s) s.wA).toNat % 2 ^ s.wA.bits = 0) ∧ FlagsKept s t [.z]
  bitSetForms .trbDp .trbAbs (claim fun m a => m &&& ~~~a) ∧ bitSetForms .tsbDp .tsbAbs (claim fun m a => m ||| a)

/-- The round trips of R233: INC A then DEC A restores A and leaves N and Z of it; ASL A then ROR A restores A and leaves
C = 0; at either width, A.h included. -/
def Obligations.AccumulatorRoundTrips : Prop :=
  ∀ s : State,
    (∃ t u : State, exec .incAcc s = .next t ∧ exec .decAcc t = .next u ∧ u.a = s.a ∧ NZof u s.wA s.a) ∧
    (∃ t u : State, exec .aslAcc s = .next t ∧ exec .rorAcc t = .next u ∧
      t.flag .c = s.a.getLsbD (s.wA.bits - 1) ∧ u.a = s.a ∧ u.flag .c = false)

/-! ### Control transfer -/

/-- The nine 8-bit-relative branches (R151, R250 to R259): taken when the condition holds, to the address of the next
instruction plus the signed displacement, wrapping in the bank; 2 cycles, one more when taken, one more when the target is in
another page than the next instruction (D7; the conditions are general knowledge: notes/assumptions/15.md; the constants:
8.md). -/
def Obligations.BranchInstructions : Prop :=
  ∀ f ∈ ([(.bcc, fun s => !s.flag .c), (.bcs, fun s => s.flag .c), (.beq, fun s => s.flag .z),
      (.bne, fun s => !s.flag .z), (.bmi, fun s => s.flag .n), (.bpl, fun s => !s.flag .n),
      (.bvc, fun s => !s.flag .v), (.bvs, fun s => s.flag .v), (.bra, fun _ => true)] :
      List ((Byte → Instr) × (State → Bool))),
    ∀ (d : Byte) (s : State), ∃ (t : State) (n : Nat), exec (f.1 d) s = .next t ∧
      t = { s.after n with pc := t.pc } ∧ (∀ b : Addr, t.busRead b = s.busRead b) ∧
      (f.2 s = false → t.pc = s.pc ∧ n = s.charge (f.1 d) 2) ∧
      (f.2 s = true → (t.pc.toNat : Int) = ((s.pc.toNat : Int) + d.toInt) % 65536 ∧
        ∃ tx : Bool, tx = decide (t.pc.toNat / 256 ≠ s.pc.toNat / 256) ∧
          n = s.charge (f.1 d) (3 + tx.toNat) { t := true, tx := tx })

/-- BRL, JMP and JML (R260 to R262, R147 to R150, R152, R157): the target, PB only by JML; the pointers of (a) and [a] are in
bank 0, that of (a,X) in bank PB (D36: notes/assumptions/19.md; that JML exists is D2: 17.md; cycles: 8.md). -/
def Obligations.JumpInstructions : Prop :=
  ∀ (s : State) (a : Word) (l : Addr),
    (∀ f ∈ ([(.brl a, s.pc + a, 4), (.jmpAbs a, a, 3), (.jmpAbsInd a, s.wordAt 0x00 a, 5),
        (.jmpAbsXInd a, s.wordAt s.pb (a + s.x), 6)] : List (Instr × Word × Nat)),
      exec f.1 s = .next { s.after (s.charge f.1 f.2.2) with pc := f.2.1 }) ∧
    exec (.jmlLong l) s = .next { s.after (s.charge (.jmlLong l) 4) with pc := longWord l, pb := longBank l } ∧
    exec (.jmlAbsIndLong a) s =
      .next { s.after (s.charge (.jmlAbsIndLong a) 6) with pc := longWord (s.longAt a), pb := longBank (s.longAt a) }

/-- JSR and JSL (R263, R264): the address of the call's last byte is pushed, high byte first, after PB for JSL; the pointer of
(a,X) is read before the push (D2, D17, D36: notes/assumptions/17.md, 19.md; cycles: 8.md). -/
def Obligations.CallInstructions : Prop :=
  ∀ (s : State) (a : Word) (l : Addr),
    (∀ f ∈ ([(.jsrAbs a, a, 6), (.jsrAbsXInd a, s.wordAt s.pb (a + s.x), 8)] : List (Instr × Word × Nat)),
      ∃ t : State, exec f.1 s = .next t ∧
        t = { s.after (s.charge f.1 f.2.2) with sp := s.spAfterPushes 2, pc := f.2.1, mem := t.mem } ∧
        Stores s t (s.pushes [hi (s.pc - 1), lo (s.pc - 1)])) ∧
    ∃ t : State, exec (.jsl l) s = .next t ∧
      t = { s.after (s.charge (.jsl l) 8) with
            sp := s.spAfterPushes 3, pc := longWord l, pb := longBank l, mem := t.mem } ∧
      Stores s t (s.pushes [s.pb, hi (s.pc - 1), lo (s.pc - 1)])

/-- RTS and RTL (R265, R266): PC is the pulled word plus 1, wrapping in the bank; RTL pulls PB after it (cycles:
notes/assumptions/8.md). -/
def Obligations.ReturnInstructions : Prop :=
  ∀ s : State,
    exec .rts s =
      .next { s.after (s.charge .rts 6) with sp := s.spAfterPulls 2, pc := word (s.pulled 1) (s.pulled 2) + 1 } ∧
    exec .rtl s =
      .next { s.after (s.charge .rtl 6) with
              sp := s.spAfterPulls 3, pc := word (s.pulled 1) (s.pulled 2) + 1, pb := s.pulled 3 }

/-! ### Stack instructions -/

/-- The seven pushes and PEA, PEI, PER (R290 to R297, R304 to R306): the bytes of the value, high byte first, and nothing else
(PHP pushes P as it stands, D34: notes/assumptions/35.md; cycles: 8.md). -/
def Obligations.PushInstructions : Prop :=
  ∀ (v : Word) (o : Byte),
    ∀ f ∈ ([(.pha, fun s => pushOrder s.wA s.a, fun s => s.charge .pha (3 + s.m16)),
        (.phx, fun s => pushOrder s.wX s.x, fun s => s.charge .phx (3 + s.x16)),
        (.phy, fun s => pushOrder s.wX s.y, fun s => s.charge .phy (3 + s.x16)),
        (.php, fun s => [s.p], fun s => s.charge .php 3), (.phb, fun s => [s.db], fun s => s.charge .phb 3),
        (.phk, fun s => [s.pb], fun s => s.charge .phk 3), (.phd, fun s => [hi s.d, lo s.d], fun s => s.charge .phd 4),
        (.pea v, fun _ => [hi v, lo v], fun s => s.charge (.pea v) 5),
        (.pei o, fun s => [hi (s.readOp (s.dp o).ea .w16), lo (s.readOp (s.dp o).ea .w16)],
          fun s => s.charge (.pei o) (6 + s.dl) (s.dp o).penalty),
        (.per v, fun s => [hi (s.pc + v), lo (s.pc + v)], fun s => s.charge (.per v) 6)] :
        List (Instr × (State → List Byte) × (State → Nat))),
      ∀ s : State, ∃ t : State, exec f.1 s = .next t ∧
        t = { s.after (f.2.2 s) with sp := s.spAfterPushes (f.2.1 s).length, mem := t.mem } ∧
        Stores s t (s.pushes (f.2.1 s))

/-- PLA, PLX and PLY (R298 to R300): the pulled value, zero-extended at width 8 (so PLA clears A.h), N and Z of it; PLB
and PLD (R302, R303): the pulled value, N and Z when the parameter PULL_BD_SETS_NZ is true (D15:
notes/assumptions/6.md; cycles: 8.md). -/
def Obligations.PullInstructions : Prop :=
  ∀ s : State,
    (∃ t : State, exec .pla s = .next t ∧ (∀ b : Addr, t.busRead b = s.busRead b) ∧
      t = { s.after (s.charge .pla (4 + s.m16)) with
            a := s.pulledValue s.wA, sp := s.spAfterPulls s.wA.bytes, p := t.p } ∧
      NZof t s.wA (s.pulledValue s.wA) ∧ FlagsKept s t [.n, .z]) ∧
    (∃ t : State, exec .plx s = .next t ∧ (∀ b : Addr, t.busRead b = s.busRead b) ∧
      t = { s.after (s.charge .plx (4 + s.x16)) with
            x := s.pulledValue s.wX, sp := s.spAfterPulls s.wX.bytes, p := t.p } ∧
      NZof t s.wX (s.pulledValue s.wX) ∧ FlagsKept s t [.n, .z]) ∧
    (∃ t : State, exec .ply s = .next t ∧ (∀ b : Addr, t.busRead b = s.busRead b) ∧
      t = { s.after (s.charge .ply (4 + s.x16)) with
            y := s.pulledValue s.wX, sp := s.spAfterPulls s.wX.bytes, p := t.p } ∧
      NZof t s.wX (s.pulledValue s.wX) ∧ FlagsKept s t [.n, .z]) ∧
    (∃ t : State, exec .plb s = .next t ∧ (∀ b : Addr, t.busRead b = s.busRead b) ∧
      t = { s.after (s.charge .plb 4) with db := s.pulled 1, sp := s.spAfterPulls 1, p := t.p } ∧
      (if s.cfg.pullBDSetsNZ then NZof t .w8 (s.pulledValue .w8) ∧ FlagsKept s t [.n, .z] else t.p = s.p)) ∧
    (∃ t : State, exec .pld s = .next t ∧ (∀ b : Addr, t.busRead b = s.busRead b) ∧
      t = { s.after (s.charge .pld 5) with d := s.pulledValue .w16, sp := s.spAfterPulls 2, p := t.p } ∧
      (if s.cfg.pullBDSetsNZ then NZof t .w16 (s.pulledValue .w16) ∧ FlagsKept s t [.n, .z] else t.p = s.p))

/-! ### Flag instructions, transfers, exchanges -/

/-- REP, SEP and PLP (R320, R321, R301) write P as a flat byte: in emulation mode P.M and P.X stay 1 and SP.h 0x01, and X.h and
Y.h are cleared when P.X ends up 1; A is kept (D22: notes/assumptions/33.md; cycles: 8.md). -/
def Obligations.FlatStatusWrites : Prop :=
  ∀ (s : State) (m : Byte),
    ∀ f ∈ ([(.rep m, s.p &&& ~~~m, s.sp, 3), (.sep m, s.p ||| m, s.sp, 3),
        (.plp, s.pulled 1, s.spAfterPulls 1, 4)] : List (Instr × Byte × Word × Nat)),
      ∃ t : State, exec f.1 s = .next t ∧ (∀ b : Addr, t.busRead b = s.busRead b) ∧
        t = { s.after (s.charge f.1 f.2.2.2) with
              p := if s.e then f.2.1 ||| 0x30 else f.2.1
              sp := if s.e then word (lo f.2.2.1) 0x01 else f.2.2.1
              x := if t.flag .x then word (lo s.x) 0x00 else s.x
              y := if t.flag .x then word (lo s.y) 0x00 else s.y }

/-- The seven single-flag instructions (R322 to R328) write one flag and nothing else (cycles: notes/assumptions/8.md). -/
def Obligations.SingleFlagInstructions : Prop :=
  ∀ f ∈ ([(.clc, .c, false), (.cld, .d, false), (.cli, .i, false), (.clv, .v, false), (.sec, .c, true),
      (.sed, .d, true), (.sei, .i, true)] : List (Instr × Flag × Bool)),
    ∀ s : State, ∃ t : State, exec f.1 s = .next t ∧ t = { s.after (s.charge f.1 2) with p := t.p } ∧
      (∀ b : Addr, t.busRead b = s.busRead b) ∧ t.flag f.2.1 = f.2.2 ∧ FlagsKept s t [f.2.1]

/-- The twelve transfers (R329 to R340, R342): into X or Y at width wX, from an index register into A at width wA with A.h
kept at width 8, into A or D in 16 bits whatever P.M is, into SP with SP.h = 0x01 in emulation mode; N and Z of the value moved
at the width of the move, no flag for TXS and TCS (D14: notes/assumptions/13.md; cycles: 8.md). -/
def Obligations.TransferInstructions : Prop :=
  ∀ s : State,
    (∀ f ∈ ([(.tax, s.a), (.tyx, s.y), (.tsx, s.sp)] : List (Instr × Word)), ∃ t : State, exec f.1 s = .next t ∧
      t = { s.after (s.charge f.1 2) with x := t.x, p := t.p } ∧ t.x.toNat = f.2.toNat % 2 ^ s.wX.bits ∧ NZof t s.wX f.2 ∧
      FlagsKept s t [.n, .z]) ∧
    (∀ f ∈ ([(.tay, s.a), (.txy, s.x)] : List (Instr × Word)), ∃ t : State, exec f.1 s = .next t ∧
      t = { s.after (s.charge f.1 2) with y := t.y, p := t.p } ∧ t.y.toNat = f.2.toNat % 2 ^ s.wX.bits ∧ NZof t s.wX f.2 ∧
      FlagsKept s t [.n, .z]) ∧
    (∀ f ∈ ([(.txa, s.x), (.tya, s.y)] : List (Instr × Word)), ∃ t : State, exec f.1 s = .next t ∧
      t = { s.after (s.charge f.1 2) with a := if s.flag .m then word (lo f.2) (hi s.a) else f.2, p := t.p } ∧
      NZof t s.wA f.2 ∧ FlagsKept s t [.n, .z]) ∧
    (∀ f ∈ ([(.tdc, s.d), (.tsc, s.sp)] : List (Instr × Word)), ∃ t : State, exec f.1 s = .next t ∧
      t = { s.after (s.charge f.1 2) with a := f.2, p := t.p } ∧ NZof t .w16 f.2 ∧ FlagsKept s t [.n, .z]) ∧
    (∃ t : State, exec .tcd s = .next t ∧ t = { s.after (s.charge .tcd 2) with d := s.a, p := t.p } ∧
      NZof t .w16 s.a ∧ FlagsKept s t [.n, .z]) ∧
    (∀ f ∈ ([(.txs, s.x), (.tcs, s.a)] : List (Instr × Word)),
      exec f.1 s = .next { s.after (s.charge f.1 2) with sp := if s.e then word (lo f.2) 0x01 else f.2 })

/-- XBA (R341) swaps the bytes of A and sets N and Z from the new low byte at width 8, whatever P.M is; twice is the
identity on A. XCE (R344, R39) exchanges C and E; entering emulation mode forces M, X and SP.h and clears X.h and Y.h,
and entering native mode changes nothing else (D21: notes/assumptions/33.md; cycles: 8.md). -/
def Obligations.ExchangeInstructions : Prop :=
  ∀ s : State,
    (∃ t u : State, exec .xba s = .next t ∧
      t = { s.after (s.charge .xba 3) with a := word (hi s.a) (lo s.a), p := t.p } ∧
      NZof t .w8 t.a ∧ FlagsKept s t [.n, .z] ∧ exec .xba t = .next u ∧ u.a = s.a) ∧
    ∃ t : State, exec .xce s = .next t ∧ (∀ b : Addr, t.busRead b = s.busRead b) ∧
      t = { s.after (s.charge .xce 2) with
            e := s.flag .c
            p := t.p
            sp := if s.flag .c then word (lo s.sp) 0x01 else s.sp
            x := if t.flag .x then word (lo s.x) 0x00 else s.x
            y := if t.flag .x then word (lo s.y) 0x00 else s.y } ∧
      t.flag .c = s.e ∧ t.flag .m = (s.flag .m || s.flag .c) ∧ t.flag .x = (s.flag .x || s.flag .c) ∧
      FlagsKept s t [.c, .m, .x]

/-! ### Block moves, no-operations, halts -/

/-- MVN and MVP (R360, R361, R366): one byte from src:X to dst:Y, X and Y stepped at width wX, A lowered by 1 in 16 bits, DB the
destination bank, and PC back on the instruction's first byte until A wraps; no flag (D23: notes/assumptions/22.md; cycles:
8.md). -/
def Obligations.BlockMoveInstructions : Prop :=
  ∀ (dst src : Byte) (s : State),
    ∀ f ∈ ([(.mvn dst src, 1), (.mvp dst src, 65535)] : List (Instr × Nat)),
      ∃ t : State, exec f.1 s = .next t ∧
        t = { s.after (s.charge f.1 7) with
              x := t.x, y := t.y, a := t.a, db := dst, pc := t.pc, mem := t.mem } ∧
        Stores s t [(addr24 dst s.y, s.busRead (addr24 src s.x))] ∧
        t.x.toNat = (s.x.toNat + f.2) % 2 ^ s.wX.bits ∧ t.y.toNat = (s.y.toNat + f.2) % 2 ^ s.wX.bits ∧
        t.a.toNat = (s.a.toNat + 65535) % 65536 ∧ t.pc = (if s.a = 0x0000 then s.pc else s.pc - 3)

/-- NOP and WDM change nothing but the cycles, WAI sets `waiting`, STP sets `stopped` (R362 to R365; the operand byte of WDM
is D32: notes/assumptions/37.md; cycles: 8.md). -/
def Obligations.NopAndHaltInstructions : Prop :=
  ∀ (s : State) (o : Byte),
    exec .nop s = .next (s.after (s.charge .nop 2)) ∧ exec (.wdm o) s = .next (s.after (s.charge (.wdm o) 2)) ∧
    exec .wai s = .next { s.after (s.charge .wai 3) with waiting := true } ∧
    exec .stp s = .next { s.after (s.charge .stp 3) with stopped := true }
end

