-- ==== Sys2Proof/Laws/Bits.lean ====
section
/-! SUPPORT. The byte and bit helpers: words and their bytes, the active width, the flags of a flag byte, the stack wrap. -/

namespace Sys2Proof

/-! ### Words and their bytes -/

theorem word_toNat (l h : Byte) : (word l h).toNat = l.toNat + 256 * h.toNat := by
  simp only [word, BitVec.toNat_append]
  rw [← Nat.shiftLeft_add_eq_or_of_lt l.isLt]
  omega

theorem lo_toNat (v : Word) : (lo v).toNat = v.toNat % 256 := by
  simp [lo]

theorem hi_toNat (v : Word) : (hi v).toNat = v.toNat / 256 := by
  have := v.isLt
  simp [hi, Nat.shiftRight_eq_div_pow]
  omega

theorem longWord_toNat (a : Addr) : (longWord a).toNat = a.toNat % 65536 := by
  simp [longWord]

theorem longBank_toNat (a : Addr) : (longBank a).toNat = a.toNat / 65536 := by
  have := a.isLt
  simp [longBank, Nat.shiftRight_eq_div_pow]
  omega

theorem long_toNat (l m h : Byte) : (long l m h).toNat = l.toNat + 256 * m.toNat + 65536 * h.toNat := by
  have hw := word_toNat l m
  have := (word l m).isLt
  simp only [word] at hw this
  simp only [long, BitVec.toNat_append (n := 16)]
  rw [hw] at this ⊢
  rw [← Nat.shiftLeft_add_eq_or_of_lt this]
  omega

@[simp] theorem lo_word (l h : Byte) : lo (word l h) = l := by
  apply BitVec.eq_of_toNat_eq
  rw [lo_toNat, word_toNat]
  omega

@[simp] theorem hi_word (l h : Byte) : hi (word l h) = h := by
  apply BitVec.eq_of_toNat_eq
  rw [hi_toNat, word_toNat]
  omega

@[simp] theorem word_lo_hi (v : Word) : word (lo v) (hi v) = v := by
  apply BitVec.eq_of_toNat_eq
  rw [word_toNat, lo_toNat, hi_toNat]
  omega

/-- Two words with equal bytes are equal. -/
theorem word_ext {v w : Word} (hl : lo v = lo w) (hh : hi v = hi w) : v = w := by
  rw [← word_lo_hi v, ← word_lo_hi w, hl, hh]

theorem lo_add (v w : Word) : lo (v + w) = lo v + lo w := by
  apply BitVec.eq_of_toNat_eq
  simp [lo_toNat, BitVec.toNat_add]

theorem lo_sub (v w : Word) : lo (v - w) = lo v - lo w := by
  apply BitVec.eq_of_toNat_eq
  simp only [lo_toNat, BitVec.toNat_sub]
  omega

@[simp] theorem lo_setWidth (b : Byte) : lo (b.setWidth 16) = b := by
  apply BitVec.eq_of_toNat_eq
  have := b.isLt
  rw [lo_toNat, BitVec.toNat_setWidth]
  omega

@[simp] theorem hi_setWidth (b : Byte) : hi (b.setWidth 16) = 0 := by
  apply BitVec.eq_of_toNat_eq
  have := b.isLt
  rw [hi_toNat]
  simp only [BitVec.toNat_setWidth, BitVec.ofNat_eq_ofNat, BitVec.toNat_ofNat]
  omega

@[simp] theorem longWord_long (l m h : Byte) : longWord (long l m h) = word l m := by
  apply BitVec.eq_of_toNat_eq
  rw [longWord_toNat, long_toNat, word_toNat]
  omega

@[simp] theorem longBank_long (l m h : Byte) : longBank (long l m h) = h := by
  apply BitVec.eq_of_toNat_eq
  rw [longBank_toNat, long_toNat]
  omega

@[simp] theorem long_parts (a : Addr) : long (lo (longWord a)) (hi (longWord a)) (longBank a) = a := by
  apply BitVec.eq_of_toNat_eq
  rw [long_toNat, lo_toNat, hi_toNat, longWord_toNat, longBank_toNat]
  omega

end Sys2Proof

namespace Sys2Proof.Machine

/-! ### Addresses -/

theorem addr24_toNat (b : Byte) (a : Word) : (addr24 b a).toNat = b.toNat * 65536 + a.toNat := by
  simp only [addr24, BitVec.toNat_append]
  rw [← Nat.shiftLeft_add_eq_or_of_lt a.isLt, Nat.shiftLeft_eq]

@[simp] theorem longWord_addr24 (b : Byte) (a : Word) : longWord (addr24 b a) = a := by
  apply BitVec.eq_of_toNat_eq
  rw [longWord_toNat, addr24_toNat]
  omega

@[simp] theorem longBank_addr24 (b : Byte) (a : Word) : longBank (addr24 b a) = b := by
  apply BitVec.eq_of_toNat_eq
  have := a.isLt
  rw [longBank_toNat, addr24_toNat]
  omega

@[simp] theorem addr24_parts (a : Addr) : addr24 (longBank a) (longWord a) = a := by
  apply BitVec.eq_of_toNat_eq
  rw [addr24_toNat, longBank_toNat, longWord_toNat]
  omega

theorem addr24_inj {b c : Byte} {a d : Word} (h : addr24 b a = addr24 c d) : b = c ∧ a = d :=
  ⟨by simpa using congrArg longBank h, by simpa using congrArg longWord h⟩

/-! ### The flags of a flag byte (R26) -/

/-- Writing one flag writes that flag and keeps the others. -/
theorem getLsbD_put (f g : Flag) (b : Bool) (p : Byte) :
    (f.put b p).getLsbD g.bit = if g = f then b else p.getLsbD g.bit := by
  cases f <;> cases g <;> cases b <;> simp [Flag.put, Flag.bit]

/-- A flag byte is its eight flags. -/
theorem flags_ext {p q : Byte} (h : ∀ f : Flag, p.getLsbD f.bit = q.getLsbD f.bit) : p = q := by
  apply BitVec.eq_of_getLsbD_eq
  intro i hi
  have : i = 0 ∨ i = 1 ∨ i = 2 ∨ i = 3 ∨ i = 4 ∨ i = 5 ∨ i = 6 ∨ i = 7 := by omega
  rcases this with rfl | rfl | rfl | rfl | rfl | rfl | rfl | rfl
  · exact h .c
  · exact h .z
  · exact h .i
  · exact h .d
  · exact h .x
  · exact h .m
  · exact h .v
  · exact h .n

/-! ### The active width (R10) -/

@[simp] theorem trunc_w16 (v : Word) : Width.w16.trunc v = v := rfl

theorem trunc_w8 (v : Word) : Width.w8.trunc v = word (lo v) 0 := by
  apply BitVec.eq_of_toNat_eq
  rw [word_toNat, lo_toNat]
  simp only [Width.trunc, BitVec.toNat_and]
  exact (Nat.and_two_pow_sub_one_eq_mod v.toNat 8).trans (by simp)

theorem trunc_toNat (w : Width) (v : Word) : (w.trunc v).toNat = v.toNat % 2 ^ w.bits := by
  cases w
  · rw [trunc_w8, word_toNat, lo_toNat]; simp [Width.bits]
  · simp [Width.bits]; omega

@[simp] theorem trunc_trunc (w : Width) (v : Word) : w.trunc (w.trunc v) = w.trunc v := by
  apply BitVec.eq_of_toNat_eq
  simp [trunc_toNat]

@[simp] theorem lo_trunc (w : Width) (v : Word) : lo (w.trunc v) = lo v := by
  cases w <;> simp [trunc_w8]

@[simp] theorem hi_trunc_w8 (v : Word) : hi (Width.w8.trunc v) = 0 := by simp [trunc_w8]

/-! ### The stack wrap (R71) -/

@[simp] theorem stackWrap_native (sp : Word) : stackWrap false sp = sp := rfl

@[simp] theorem hi_stackWrap_emulation (sp : Word) : hi (stackWrap true sp) = 0x01 := by simp [stackWrap]

@[simp] theorem lo_stackWrap (e : Bool) (sp : Word) : lo (stackWrap e sp) = lo sp := by
  cases e <;> simp [stackWrap]

/-- Moving a wrapped stack pointer again is moving the first one further. -/
theorem stackWrap_sub (e : Bool) (sp d : Word) : stackWrap e (stackWrap e sp - d) = stackWrap e (sp - d) := by
  cases e <;> simp [stackWrap, lo_sub]

theorem stackWrap_add (e : Bool) (sp d : Word) : stackWrap e (stackWrap e sp + d) = stackWrap e (sp + d) := by
  cases e <;> simp [stackWrap, lo_add]

/-- A stack pointer that meets the mode invariant is not moved by the wrap. -/
theorem stackWrap_eq_self {e : Bool} {sp : Word} (h : e = true → hi sp = 0x01) : stackWrap e sp = sp := by
  cases e
  · rfl
  · exact word_ext (by simp) (by simp [h rfl])

end Sys2Proof.Machine
end

