-- ==== Sys2Proof/Laws/PerInstr.lean ====
section
/-! SUPPORT. The statements made for every instruction, one lemma per constructor.
Family TableRow: the cell of the opcode map at an instruction's own opcode byte makes that instruction from its own operand
(30_encoding.md R105). -/

namespace Sys2Proof

/-- The instruction a cell of the opcode map makes of an operand, where the operand has the cell's format. -/
def Row.make : Row → Operand → Option Instr
  | .implied i, .none => some i
  | .byte f, .byte b => some (f b)
  | .word f, .word v => some (f v)
  | .long f, .long a => some (f a)
  | .immM f, .immM v => some (f v)
  | .immX f, .immX v => some (f v)
  | .banks f, .banks dst src => some (f dst src)
  | _, _ => none

namespace Laws.TableRow

/-- The map's cell at the instruction's opcode makes the instruction of its operand. -/
def Statement (i : Instr) : Prop :=
  (opcodeTable[i.opcode.toNat]?).bind (fun row => row.make i.operand) = some i

theorem ldaDpXInd (o : Byte) : Statement (.ldaDpXInd o) := rfl
theorem ldaSr (o : Byte) : Statement (.ldaSr o) := rfl
theorem ldaDp (o : Byte) : Statement (.ldaDp o) := rfl
theorem ldaDpIndLong (o : Byte) : Statement (.ldaDpIndLong o) := rfl
theorem ldaImm (v : Word) : Statement (.ldaImm v) := rfl
theorem ldaAbs (a : Word) : Statement (.ldaAbs a) := rfl
theorem ldaLong (a : Addr) : Statement (.ldaLong a) := rfl
theorem ldaDpIndY (o : Byte) : Statement (.ldaDpIndY o) := rfl
theorem ldaDpInd (o : Byte) : Statement (.ldaDpInd o) := rfl
theorem ldaSrIndY (o : Byte) : Statement (.ldaSrIndY o) := rfl
theorem ldaDpX (o : Byte) : Statement (.ldaDpX o) := rfl
theorem ldaDpIndLongY (o : Byte) : Statement (.ldaDpIndLongY o) := rfl
theorem ldaAbsY (a : Word) : Statement (.ldaAbsY a) := rfl
theorem ldaAbsX (a : Word) : Statement (.ldaAbsX a) := rfl
theorem ldaLongX (a : Addr) : Statement (.ldaLongX a) := rfl
theorem ldxImm (v : Word) : Statement (.ldxImm v) := rfl
theorem ldxDp (o : Byte) : Statement (.ldxDp o) := rfl
theorem ldxAbs (a : Word) : Statement (.ldxAbs a) := rfl
theorem ldxDpY (o : Byte) : Statement (.ldxDpY o) := rfl
theorem ldxAbsY (a : Word) : Statement (.ldxAbsY a) := rfl
theorem ldyImm (v : Word) : Statement (.ldyImm v) := rfl
theorem ldyDp (o : Byte) : Statement (.ldyDp o) := rfl
theorem ldyAbs (a : Word) : Statement (.ldyAbs a) := rfl
theorem ldyDpX (o : Byte) : Statement (.ldyDpX o) := rfl
theorem ldyAbsX (a : Word) : Statement (.ldyAbsX a) := rfl
theorem staDpXInd (o : Byte) : Statement (.staDpXInd o) := rfl
theorem staSr (o : Byte) : Statement (.staSr o) := rfl
theorem staDp (o : Byte) : Statement (.staDp o) := rfl
theorem staDpIndLong (o : Byte) : Statement (.staDpIndLong o) := rfl
theorem staAbs (a : Word) : Statement (.staAbs a) := rfl
theorem staLong (a : Addr) : Statement (.staLong a) := rfl
theorem staDpIndY (o : Byte) : Statement (.staDpIndY o) := rfl
theorem staDpInd (o : Byte) : Statement (.staDpInd o) := rfl
theorem staSrIndY (o : Byte) : Statement (.staSrIndY o) := rfl
theorem staDpX (o : Byte) : Statement (.staDpX o) := rfl
theorem staDpIndLongY (o : Byte) : Statement (.staDpIndLongY o) := rfl
theorem staAbsY (a : Word) : Statement (.staAbsY a) := rfl
theorem staAbsX (a : Word) : Statement (.staAbsX a) := rfl
theorem staLongX (a : Addr) : Statement (.staLongX a) := rfl
theorem stxDp (o : Byte) : Statement (.stxDp o) := rfl
theorem stxAbs (a : Word) : Statement (.stxAbs a) := rfl
theorem stxDpY (o : Byte) : Statement (.stxDpY o) := rfl
theorem styDp (o : Byte) : Statement (.styDp o) := rfl
theorem styAbs (a : Word) : Statement (.styAbs a) := rfl
theorem styDpX (o : Byte) : Statement (.styDpX o) := rfl
theorem stzDp (o : Byte) : Statement (.stzDp o) := rfl
theorem stzDpX (o : Byte) : Statement (.stzDpX o) := rfl
theorem stzAbs (a : Word) : Statement (.stzAbs a) := rfl
theorem stzAbsX (a : Word) : Statement (.stzAbsX a) := rfl
theorem adcDpXInd (o : Byte) : Statement (.adcDpXInd o) := rfl
theorem adcSr (o : Byte) : Statement (.adcSr o) := rfl
theorem adcDp (o : Byte) : Statement (.adcDp o) := rfl
theorem adcDpIndLong (o : Byte) : Statement (.adcDpIndLong o) := rfl
theorem adcImm (v : Word) : Statement (.adcImm v) := rfl
theorem adcAbs (a : Word) : Statement (.adcAbs a) := rfl
theorem adcLong (a : Addr) : Statement (.adcLong a) := rfl
theorem adcDpIndY (o : Byte) : Statement (.adcDpIndY o) := rfl
theorem adcDpInd (o : Byte) : Statement (.adcDpInd o) := rfl
theorem adcSrIndY (o : Byte) : Statement (.adcSrIndY o) := rfl
theorem adcDpX (o : Byte) : Statement (.adcDpX o) := rfl
theorem adcDpIndLongY (o : Byte) : Statement (.adcDpIndLongY o) := rfl
theorem adcAbsY (a : Word) : Statement (.adcAbsY a) := rfl
theorem adcAbsX (a : Word) : Statement (.adcAbsX a) := rfl
theorem adcLongX (a : Addr) : Statement (.adcLongX a) := rfl
theorem sbcDpXInd (o : Byte) : Statement (.sbcDpXInd o) := rfl
theorem sbcSr (o : Byte) : Statement (.sbcSr o) := rfl
theorem sbcDp (o : Byte) : Statement (.sbcDp o) := rfl
theorem sbcDpIndLong (o : Byte) : Statement (.sbcDpIndLong o) := rfl
theorem sbcImm (v : Word) : Statement (.sbcImm v) := rfl
theorem sbcAbs (a : Word) : Statement (.sbcAbs a) := rfl
theorem sbcLong (a : Addr) : Statement (.sbcLong a) := rfl
theorem sbcDpIndY (o : Byte) : Statement (.sbcDpIndY o) := rfl
theorem sbcDpInd (o : Byte) : Statement (.sbcDpInd o) := rfl
theorem sbcSrIndY (o : Byte) : Statement (.sbcSrIndY o) := rfl
theorem sbcDpX (o : Byte) : Statement (.sbcDpX o) := rfl
theorem sbcDpIndLongY (o : Byte) : Statement (.sbcDpIndLongY o) := rfl
theorem sbcAbsY (a : Word) : Statement (.sbcAbsY a) := rfl
theorem sbcAbsX (a : Word) : Statement (.sbcAbsX a) := rfl
theorem sbcLongX (a : Addr) : Statement (.sbcLongX a) := rfl
theorem andDpXInd (o : Byte) : Statement (.andDpXInd o) := rfl
theorem andSr (o : Byte) : Statement (.andSr o) := rfl
theorem andDp (o : Byte) : Statement (.andDp o) := rfl
theorem andDpIndLong (o : Byte) : Statement (.andDpIndLong o) := rfl
theorem andImm (v : Word) : Statement (.andImm v) := rfl
theorem andAbs (a : Word) : Statement (.andAbs a) := rfl
theorem andLong (a : Addr) : Statement (.andLong a) := rfl
theorem andDpIndY (o : Byte) : Statement (.andDpIndY o) := rfl
theorem andDpInd (o : Byte) : Statement (.andDpInd o) := rfl
theorem andSrIndY (o : Byte) : Statement (.andSrIndY o) := rfl
theorem andDpX (o : Byte) : Statement (.andDpX o) := rfl
theorem andDpIndLongY (o : Byte) : Statement (.andDpIndLongY o) := rfl
theorem andAbsY (a : Word) : Statement (.andAbsY a) := rfl
theorem andAbsX (a : Word) : Statement (.andAbsX a) := rfl
theorem andLongX (a : Addr) : Statement (.andLongX a) := rfl
theorem oraDpXInd (o : Byte) : Statement (.oraDpXInd o) := rfl
theorem oraSr (o : Byte) : Statement (.oraSr o) := rfl
theorem oraDp (o : Byte) : Statement (.oraDp o) := rfl
theorem oraDpIndLong (o : Byte) : Statement (.oraDpIndLong o) := rfl
theorem oraImm (v : Word) : Statement (.oraImm v) := rfl
theorem oraAbs (a : Word) : Statement (.oraAbs a) := rfl
theorem oraLong (a : Addr) : Statement (.oraLong a) := rfl
theorem oraDpIndY (o : Byte) : Statement (.oraDpIndY o) := rfl
theorem oraDpInd (o : Byte) : Statement (.oraDpInd o) := rfl
theorem oraSrIndY (o : Byte) : Statement (.oraSrIndY o) := rfl
theorem oraDpX (o : Byte) : Statement (.oraDpX o) := rfl
theorem oraDpIndLongY (o : Byte) : Statement (.oraDpIndLongY o) := rfl
theorem oraAbsY (a : Word) : Statement (.oraAbsY a) := rfl
theorem oraAbsX (a : Word) : Statement (.oraAbsX a) := rfl
theorem oraLongX (a : Addr) : Statement (.oraLongX a) := rfl
theorem eorDpXInd (o : Byte) : Statement (.eorDpXInd o) := rfl
theorem eorSr (o : Byte) : Statement (.eorSr o) := rfl
theorem eorDp (o : Byte) : Statement (.eorDp o) := rfl
theorem eorDpIndLong (o : Byte) : Statement (.eorDpIndLong o) := rfl
theorem eorImm (v : Word) : Statement (.eorImm v) := rfl
theorem eorAbs (a : Word) : Statement (.eorAbs a) := rfl
theorem eorLong (a : Addr) : Statement (.eorLong a) := rfl
theorem eorDpIndY (o : Byte) : Statement (.eorDpIndY o) := rfl
theorem eorDpInd (o : Byte) : Statement (.eorDpInd o) := rfl
theorem eorSrIndY (o : Byte) : Statement (.eorSrIndY o) := rfl
theorem eorDpX (o : Byte) : Statement (.eorDpX o) := rfl
theorem eorDpIndLongY (o : Byte) : Statement (.eorDpIndLongY o) := rfl
theorem eorAbsY (a : Word) : Statement (.eorAbsY a) := rfl
theorem eorAbsX (a : Word) : Statement (.eorAbsX a) := rfl
theorem eorLongX (a : Addr) : Statement (.eorLongX a) := rfl
theorem cmpDpXInd (o : Byte) : Statement (.cmpDpXInd o) := rfl
theorem cmpSr (o : Byte) : Statement (.cmpSr o) := rfl
theorem cmpDp (o : Byte) : Statement (.cmpDp o) := rfl
theorem cmpDpIndLong (o : Byte) : Statement (.cmpDpIndLong o) := rfl
theorem cmpImm (v : Word) : Statement (.cmpImm v) := rfl
theorem cmpAbs (a : Word) : Statement (.cmpAbs a) := rfl
theorem cmpLong (a : Addr) : Statement (.cmpLong a) := rfl
theorem cmpDpIndY (o : Byte) : Statement (.cmpDpIndY o) := rfl
theorem cmpDpInd (o : Byte) : Statement (.cmpDpInd o) := rfl
theorem cmpSrIndY (o : Byte) : Statement (.cmpSrIndY o) := rfl
theorem cmpDpX (o : Byte) : Statement (.cmpDpX o) := rfl
theorem cmpDpIndLongY (o : Byte) : Statement (.cmpDpIndLongY o) := rfl
theorem cmpAbsY (a : Word) : Statement (.cmpAbsY a) := rfl
theorem cmpAbsX (a : Word) : Statement (.cmpAbsX a) := rfl
theorem cmpLongX (a : Addr) : Statement (.cmpLongX a) := rfl
theorem cpxImm (v : Word) : Statement (.cpxImm v) := rfl
theorem cpxDp (o : Byte) : Statement (.cpxDp o) := rfl
theorem cpxAbs (a : Word) : Statement (.cpxAbs a) := rfl
theorem cpyImm (v : Word) : Statement (.cpyImm v) := rfl
theorem cpyDp (o : Byte) : Statement (.cpyDp o) := rfl
theorem cpyAbs (a : Word) : Statement (.cpyAbs a) := rfl
theorem bitDp (o : Byte) : Statement (.bitDp o) := rfl
theorem bitAbs (a : Word) : Statement (.bitAbs a) := rfl
theorem bitDpX (o : Byte) : Statement (.bitDpX o) := rfl
theorem bitAbsX (a : Word) : Statement (.bitAbsX a) := rfl
theorem bitImm (v : Word) : Statement (.bitImm v) := rfl
theorem aslDp (o : Byte) : Statement (.aslDp o) := rfl
theorem aslAcc : Statement .aslAcc := rfl
theorem aslAbs (a : Word) : Statement (.aslAbs a) := rfl
theorem aslDpX (o : Byte) : Statement (.aslDpX o) := rfl
theorem aslAbsX (a : Word) : Statement (.aslAbsX a) := rfl
theorem lsrDp (o : Byte) : Statement (.lsrDp o) := rfl
theorem lsrAcc : Statement .lsrAcc := rfl
theorem lsrAbs (a : Word) : Statement (.lsrAbs a) := rfl
theorem lsrDpX (o : Byte) : Statement (.lsrDpX o) := rfl
theorem lsrAbsX (a : Word) : Statement (.lsrAbsX a) := rfl
theorem rolDp (o : Byte) : Statement (.rolDp o) := rfl
theorem rolAcc : Statement .rolAcc := rfl
theorem rolAbs (a : Word) : Statement (.rolAbs a) := rfl
theorem rolDpX (o : Byte) : Statement (.rolDpX o) := rfl
theorem rolAbsX (a : Word) : Statement (.rolAbsX a) := rfl
theorem rorDp (o : Byte) : Statement (.rorDp o) := rfl
theorem rorAcc : Statement .rorAcc := rfl
theorem rorAbs (a : Word) : Statement (.rorAbs a) := rfl
theorem rorDpX (o : Byte) : Statement (.rorDpX o) := rfl
theorem rorAbsX (a : Word) : Statement (.rorAbsX a) := rfl
theorem incAcc : Statement .incAcc := rfl
theorem incDp (o : Byte) : Statement (.incDp o) := rfl
theorem incAbs (a : Word) : Statement (.incAbs a) := rfl
theorem incDpX (o : Byte) : Statement (.incDpX o) := rfl
theorem incAbsX (a : Word) : Statement (.incAbsX a) := rfl
theorem decAcc : Statement .decAcc := rfl
theorem decDp (o : Byte) : Statement (.decDp o) := rfl
theorem decAbs (a : Word) : Statement (.decAbs a) := rfl
theorem decDpX (o : Byte) : Statement (.decDpX o) := rfl
theorem decAbsX (a : Word) : Statement (.decAbsX a) := rfl
theorem inx : Statement .inx := rfl
theorem iny : Statement .iny := rfl
theorem dex : Statement .dex := rfl
theorem dey : Statement .dey := rfl
theorem trbDp (o : Byte) : Statement (.trbDp o) := rfl
theorem trbAbs (a : Word) : Statement (.trbAbs a) := rfl
theorem tsbDp (o : Byte) : Statement (.tsbDp o) := rfl
theorem tsbAbs (a : Word) : Statement (.tsbAbs a) := rfl
theorem bcc (d : Byte) : Statement (.bcc d) := rfl
theorem bcs (d : Byte) : Statement (.bcs d) := rfl
theorem beq (d : Byte) : Statement (.beq d) := rfl
theorem bmi (d : Byte) : Statement (.bmi d) := rfl
theorem bne (d : Byte) : Statement (.bne d) := rfl
theorem bpl (d : Byte) : Statement (.bpl d) := rfl
theorem bvc (d : Byte) : Statement (.bvc d) := rfl
theorem bvs (d : Byte) : Statement (.bvs d) := rfl
theorem bra (d : Byte) : Statement (.bra d) := rfl
theorem brl (d : Word) : Statement (.brl d) := rfl
theorem jmpAbs (a : Word) : Statement (.jmpAbs a) := rfl
theorem jmpAbsInd (a : Word) : Statement (.jmpAbsInd a) := rfl
theorem jmpAbsXInd (a : Word) : Statement (.jmpAbsXInd a) := rfl
theorem jmlLong (a : Addr) : Statement (.jmlLong a) := rfl
theorem jmlAbsIndLong (a : Word) : Statement (.jmlAbsIndLong a) := rfl
theorem jsrAbs (a : Word) : Statement (.jsrAbs a) := rfl
theorem jsrAbsXInd (a : Word) : Statement (.jsrAbsXInd a) := rfl
theorem jsl (a : Addr) : Statement (.jsl a) := rfl
theorem rts : Statement .rts := rfl
theorem rtl : Statement .rtl := rfl
theorem rti : Statement .rti := rfl
theorem brk (sig : Byte) : Statement (.brk sig) := rfl
theorem cop (sig : Byte) : Statement (.cop sig) := rfl
theorem mvn (dst : Byte) (src : Byte) : Statement (.mvn dst src) := rfl
theorem mvp (dst : Byte) (src : Byte) : Statement (.mvp dst src) := rfl
theorem nop : Statement .nop := rfl
theorem wdm (o : Byte) : Statement (.wdm o) := rfl
theorem wai : Statement .wai := rfl
theorem stp : Statement .stp := rfl
theorem pha : Statement .pha := rfl
theorem phx : Statement .phx := rfl
theorem phy : Statement .phy := rfl
theorem php : Statement .php := rfl
theorem phb : Statement .phb := rfl
theorem phd : Statement .phd := rfl
theorem phk : Statement .phk := rfl
theorem pla : Statement .pla := rfl
theorem plx : Statement .plx := rfl
theorem ply : Statement .ply := rfl
theorem plp : Statement .plp := rfl
theorem plb : Statement .plb := rfl
theorem pld : Statement .pld := rfl
theorem pea (v : Word) : Statement (.pea v) := rfl
theorem pei (o : Byte) : Statement (.pei o) := rfl
theorem per (d : Word) : Statement (.per d) := rfl
theorem rep (mask : Byte) : Statement (.rep mask) := rfl
theorem sep (mask : Byte) : Statement (.sep mask) := rfl
theorem clc : Statement .clc := rfl
theorem cld : Statement .cld := rfl
theorem cli : Statement .cli := rfl
theorem clv : Statement .clv := rfl
theorem sec : Statement .sec := rfl
theorem sed : Statement .sed := rfl
theorem sei : Statement .sei := rfl
theorem tax : Statement .tax := rfl
theorem tay : Statement .tay := rfl
theorem txa : Statement .txa := rfl
theorem tya : Statement .tya := rfl
theorem txy : Statement .txy := rfl
theorem tyx : Statement .tyx := rfl
theorem tsx : Statement .tsx := rfl
theorem txs : Statement .txs := rfl
theorem tcd : Statement .tcd := rfl
theorem tdc : Statement .tdc := rfl
theorem tcs : Statement .tcs := rfl
theorem tsc : Statement .tsc := rfl
theorem xba : Statement .xba := rfl
theorem xce : Statement .xce := rfl

end Laws.TableRow

end Sys2Proof
end

