-- ==== Sys2Proof/Laws/Decode.lean ====
section
/-! SUPPORT. The decoder: the opcode map has a cell for every byte, any four bytes decode, a cell reads back the
operand bytes that the encoder writes, and what decodes is what the encoder writes. -/

namespace Sys2Proof

theorem opcodeTable_length : opcodeTable.length = 256 := by
  simp only [opcodeTable, List.length_append]
  rfl

/-- The map has a cell for every opcode byte (30_encoding.md R105). -/
theorem opcodeTable_complete (op : Byte) : ∃ row, opcodeTable[op.toNat]? = some row :=
  ⟨_, List.getElem?_eq_getElem (by rw [opcodeTable_length]; exact op.isLt)⟩

/-- No instruction is longer than four bytes. -/
theorem Row.read_three (m8 x8 : Bool) (row : Row) (b c d : Byte) :
    ∃ ir, row.read m8 x8 [b, c, d] = some ir ∧ ir.2.length ≤ 3 := by
  cases row <;> cases m8 <;> cases x8 <;> simp [Row.read, readImm]

/-- Any four bytes decode. -/
theorem decode_four (m8 x8 : Bool) (a b c d : Byte) :
    ∃ ir, decode m8 x8 [a, b, c, d] = .ok ir ∧ ir.2.length ≤ 3 := by
  obtain ⟨row, hrow⟩ := opcodeTable_complete a
  obtain ⟨ir, hir, hlen⟩ := row.read_three m8 x8 b c d
  exact ⟨ir, by simp [decode, hrow, hir], hlen⟩

/-- An immediate reads back the value whose bytes the encoder wrote. -/
theorem readImm_immBytes (w8 : Bool) (v : Word) (rest : List Byte) (h : w8 = true → v.toNat < 256) :
    readImm w8 (immBytes w8 v ++ rest) = some (v, rest) := by
  cases w8
  · simp [readImm, immBytes]
  · have hv : (lo v).setWidth 16 = v := by
      apply BitVec.eq_of_toNat_eq
      have := h rfl
      rw [BitVec.toNat_setWidth, lo_toNat]
      omega
    simp [readImm, immBytes, hv]

/-- A cell that makes an instruction of an operand reads that operand's bytes back. -/
theorem Row.read_bytes {m8 x8 : Bool} {row : Row} {o : Operand} {i : Instr} (rest : List Byte)
    (hmake : row.make o = some i) (hwf : o.wf m8 x8 = true) :
    row.read m8 x8 (o.bytes m8 x8 ++ rest) = some (i, rest) := by
  cases row <;> cases o <;> simp_all [Row.make, Row.read, Operand.bytes, Operand.wf]
  all_goals
    rw [readImm_immBytes _ _ _ fun h => by simpa [h] using hwf]
    simpa using hmake

/-- The cell makes instructions of this opcode byte, with an operand of the cell's format. -/
def Row.Sound (op : Byte) : Row → Prop
  | .implied i => i.opcode = op ∧ i.operand = .none
  | .byte f => ∀ b, (f b).opcode = op ∧ (f b).operand = .byte b
  | .word f => ∀ v, (f v).opcode = op ∧ (f v).operand = .word v
  | .long f => ∀ a, (f a).opcode = op ∧ (f a).operand = .long a
  | .immM f => ∀ v, (f v).opcode = op ∧ (f v).operand = .immM v
  | .immX f => ∀ v, (f v).opcode = op ∧ (f v).operand = .immX v
  | .banks f => ∀ b c, (f b c).opcode = op ∧ (f b c).operand = .banks b c

/-- The cells from opcode byte `n` on are sound. -/
def soundFrom : Nat → List Row → Prop
  | _, [] => True
  | n, r :: rs => Row.Sound (BitVec.ofNat 8 n) r ∧ soundFrom (n + 1) rs

theorem soundFrom_append (n : Nat) (a b : List Row) :
    soundFrom n (a ++ b) ↔ soundFrom n a ∧ soundFrom (n + a.length) b := by
  induction a generalizing n with
  | nil => simp [soundFrom]
  | cons r a ih => simp [soundFrom, ih, and_assoc, Nat.add_assoc, Nat.add_comm 1]

theorem soundFrom_get {n : Nat} {l : List Row} (h : soundFrom n l) {k : Nat} {r : Row} (hk : l[k]? = some r) :
    Row.Sound (BitVec.ofNat 8 (n + k)) r := by
  induction l generalizing n k with
  | nil => simp at hk
  | cons q l ih =>
    cases k with
    | zero =>
      obtain rfl : q = r := by simpa using hk
      exact h.1
    | succ k =>
      have := ih h.2 (k := k) (by simpa using hk)
      rwa [Nat.add_assoc, Nat.add_comm 1] at this

theorem soundFrom_row0 : soundFrom 0 row0 := by
  unfold row0
  refine ⟨?_, ?_, ?_, ?_, ?_, ?_, ?_, ?_, ?_, ?_, ?_, ?_, ?_, ?_, ?_, ?_, trivial⟩
  all_goals first | exact ⟨rfl, rfl⟩ | exact fun _ => ⟨rfl, rfl⟩

theorem soundFrom_row1 : soundFrom 16 row1 := by
  unfold row1
  refine ⟨?_, ?_, ?_, ?_, ?_, ?_, ?_, ?_, ?_, ?_, ?_, ?_, ?_, ?_, ?_, ?_, trivial⟩
  all_goals first | exact ⟨rfl, rfl⟩ | exact fun _ => ⟨rfl, rfl⟩

theorem soundFrom_row2 : soundFrom 32 row2 := by
  unfold row2
  refine ⟨?_, ?_, ?_, ?_, ?_, ?_, ?_, ?_, ?_, ?_, ?_, ?_, ?_, ?_, ?_, ?_, trivial⟩
  all_goals first | exact ⟨rfl, rfl⟩ | exact fun _ => ⟨rfl, rfl⟩

theorem soundFrom_row3 : soundFrom 48 row3 := by
  unfold row3
  refine ⟨?_, ?_, ?_, ?_, ?_, ?_, ?_, ?_, ?_, ?_, ?_, ?_, ?_, ?_, ?_, ?_, trivial⟩
  all_goals first | exact ⟨rfl, rfl⟩ | exact fun _ => ⟨rfl, rfl⟩

theorem soundFrom_row4 : soundFrom 64 row4 := by
  unfold row4
  refine ⟨?_, ?_, ?_, ?_, ?_, ?_, ?_, ?_, ?_, ?_, ?_, ?_, ?_, ?_, ?_, ?_, trivial⟩
  all_goals first | exact ⟨rfl, rfl⟩ | exact fun _ => ⟨rfl, rfl⟩ | exact fun _ _ => ⟨rfl, rfl⟩

theorem soundFrom_row5 : soundFrom 80 row5 := by
  unfold row5
  refine ⟨?_, ?_, ?_, ?_, ?_, ?_, ?_, ?_, ?_, ?_, ?_, ?_, ?_, ?_, ?_, ?_, trivial⟩
  all_goals first | exact ⟨rfl, rfl⟩ | exact fun _ => ⟨rfl, rfl⟩ | exact fun _ _ => ⟨rfl, rfl⟩

theorem soundFrom_row6 : soundFrom 96 row6 := by
  unfold row6
  refine ⟨?_, ?_, ?_, ?_, ?_, ?_, ?_, ?_, ?_, ?_, ?_, ?_, ?_, ?_, ?_, ?_, trivial⟩
  all_goals first | exact ⟨rfl, rfl⟩ | exact fun _ => ⟨rfl, rfl⟩

theorem soundFrom_row7 : soundFrom 112 row7 := by
  unfold row7
  refine ⟨?_, ?_, ?_, ?_, ?_, ?_, ?_, ?_, ?_, ?_, ?_, ?_, ?_, ?_, ?_, ?_, trivial⟩
  all_goals first | exact ⟨rfl, rfl⟩ | exact fun _ => ⟨rfl, rfl⟩

theorem soundFrom_row8 : soundFrom 128 row8 := by
  unfold row8
  refine ⟨?_, ?_, ?_, ?_, ?_, ?_, ?_, ?_, ?_, ?_, ?_, ?_, ?_, ?_, ?_, ?_, trivial⟩
  all_goals first | exact ⟨rfl, rfl⟩ | exact fun _ => ⟨rfl, rfl⟩

theorem soundFrom_row9 : soundFrom 144 row9 := by
  unfold row9
  refine ⟨?_, ?_, ?_, ?_, ?_, ?_, ?_, ?_, ?_, ?_, ?_, ?_, ?_, ?_, ?_, ?_, trivial⟩
  all_goals first | exact ⟨rfl, rfl⟩ | exact fun _ => ⟨rfl, rfl⟩

theorem soundFrom_rowA : soundFrom 160 rowA := by
  unfold rowA
  refine ⟨?_, ?_, ?_, ?_, ?_, ?_, ?_, ?_, ?_, ?_, ?_, ?_, ?_, ?_, ?_, ?_, trivial⟩
  all_goals first | exact ⟨rfl, rfl⟩ | exact fun _ => ⟨rfl, rfl⟩

theorem soundFrom_rowB : soundFrom 176 rowB := by
  unfold rowB
  refine ⟨?_, ?_, ?_, ?_, ?_, ?_, ?_, ?_, ?_, ?_, ?_, ?_, ?_, ?_, ?_, ?_, trivial⟩
  all_goals first | exact ⟨rfl, rfl⟩ | exact fun _ => ⟨rfl, rfl⟩

theorem soundFrom_rowC : soundFrom 192 rowC := by
  unfold rowC
  refine ⟨?_, ?_, ?_, ?_, ?_, ?_, ?_, ?_, ?_, ?_, ?_, ?_, ?_, ?_, ?_, ?_, trivial⟩
  all_goals first | exact ⟨rfl, rfl⟩ | exact fun _ => ⟨rfl, rfl⟩

theorem soundFrom_rowD : soundFrom 208 rowD := by
  unfold rowD
  refine ⟨?_, ?_, ?_, ?_, ?_, ?_, ?_, ?_, ?_, ?_, ?_, ?_, ?_, ?_, ?_, ?_, trivial⟩
  all_goals first | exact ⟨rfl, rfl⟩ | exact fun _ => ⟨rfl, rfl⟩

theorem soundFrom_rowE : soundFrom 224 rowE := by
  unfold rowE
  refine ⟨?_, ?_, ?_, ?_, ?_, ?_, ?_, ?_, ?_, ?_, ?_, ?_, ?_, ?_, ?_, ?_, trivial⟩
  all_goals first | exact ⟨rfl, rfl⟩ | exact fun _ => ⟨rfl, rfl⟩

theorem soundFrom_rowF : soundFrom 240 rowF := by
  unfold rowF
  refine ⟨?_, ?_, ?_, ?_, ?_, ?_, ?_, ?_, ?_, ?_, ?_, ?_, ?_, ?_, ?_, ?_, trivial⟩
  all_goals first | exact ⟨rfl, rfl⟩ | exact fun _ => ⟨rfl, rfl⟩

theorem soundFrom_opcodeTable : soundFrom 0 opcodeTable := by
  have len : ∀ r ∈ [row0, row1, row2, row3, row4, row5, row6, row7, row8, row9, rowA, rowB, rowC, rowD, rowE, rowF],
      r.length = 16 := by
    intro r hr
    simp only [List.mem_cons, List.not_mem_nil, or_false] at hr
    rcases hr with h | h | h | h | h | h | h | h | h | h | h | h | h | h | h | h <;> rw [h] <;> rfl
  simp only [List.forall_mem_cons] at len
  simp only [opcodeTable, soundFrom_append, List.length_append, Nat.reduceAdd, len]
  exact ⟨⟨⟨⟨⟨⟨⟨⟨⟨⟨⟨⟨⟨⟨⟨soundFrom_row0, soundFrom_row1⟩, soundFrom_row2⟩, soundFrom_row3⟩, soundFrom_row4⟩,
    soundFrom_row5⟩, soundFrom_row6⟩, soundFrom_row7⟩, soundFrom_row8⟩, soundFrom_row9⟩, soundFrom_rowA⟩,
    soundFrom_rowB⟩, soundFrom_rowC⟩, soundFrom_rowD⟩, soundFrom_rowE⟩, soundFrom_rowF⟩

/-- The cell of an opcode byte makes instructions of that byte. -/
theorem opcodeTable_sound {op : Byte} {row : Row} (h : opcodeTable[op.toNat]? = some row) : row.Sound op := by
  simpa using soundFrom_get soundFrom_opcodeTable h

/-- What a sound cell reads is well formed, and its operand's bytes are those it was read from. -/
theorem row_read_sound {m8 x8 : Bool} {op : Byte} {row : Row} (h : Row.Sound op row) {bytes rest : List Byte} {i : Instr}
    (hr : row.read m8 x8 bytes = some (i, rest)) :
    i.opcode = op ∧ i.wf m8 x8 = true ∧ i.operand.bytes m8 x8 ++ rest = bytes := by
  have hlt : ∀ b : Byte, b.toNat < 256 := fun b => b.isLt
  cases row with
  | implied j => simp [Row.read] at hr; obtain ⟨rfl, rfl⟩ := hr; simp [h.1, h.2, Instr.wf, Operand.wf, Operand.bytes]
  | byte f =>
    rcases bytes with _ | ⟨b, bs⟩ <;> simp [Row.read] at hr
    obtain ⟨rfl, rfl⟩ := hr; simp [(h b).1, (h b).2, Instr.wf, Operand.wf, Operand.bytes]
  | word f =>
    rcases bytes with _ | ⟨b, _ | ⟨c, bs⟩⟩ <;> simp [Row.read] at hr
    obtain ⟨rfl, rfl⟩ := hr; simp [(h (word b c)).1, (h (word b c)).2, Instr.wf, Operand.wf, Operand.bytes]
  | long f =>
    rcases bytes with _ | ⟨b, _ | ⟨c, _ | ⟨d, bs⟩⟩⟩ <;> simp [Row.read] at hr
    obtain ⟨rfl, rfl⟩ := hr; simp [(h (long b c d)).1, (h (long b c d)).2, Instr.wf, Operand.wf, Operand.bytes]
  | banks f =>
    rcases bytes with _ | ⟨b, _ | ⟨c, bs⟩⟩ <;> simp [Row.read] at hr
    obtain ⟨rfl, rfl⟩ := hr; simp [(h b c).1, (h b c).2, Instr.wf, Operand.wf, Operand.bytes]
  | immM f =>
    cases m8 <;> rcases bytes with _ | ⟨b, _ | ⟨c, bs⟩⟩ <;> simp [Row.read, readImm] at hr <;>
    · obtain ⟨rfl, rfl⟩ := hr
      simp [(h _).1, (h _).2, Instr.wf, Operand.wf, Operand.bytes, immBytes, BitVec.toNat_setWidth]
      try have := hlt b; omega
  | immX f =>
    cases x8 <;> rcases bytes with _ | ⟨b, _ | ⟨c, bs⟩⟩ <;> simp [Row.read, readImm] at hr <;>
    · obtain ⟨rfl, rfl⟩ := hr
      simp [(h _).1, (h _).2, Instr.wf, Operand.wf, Operand.bytes, immBytes, BitVec.toNat_setWidth]
      try have := hlt b; omega

/-- What decodes has the opcode byte and the operand bytes it was read from, and is well formed. -/
theorem decode_sound {m8 x8 : Bool} {op : Byte} {bytes rest : List Byte} {i : Instr}
    (hd : decode m8 x8 (op :: bytes) = .ok (i, rest)) :
    i.opcode = op ∧ i.wf m8 x8 = true ∧ i.operand.bytes m8 x8 ++ rest = bytes := by
  simp only [decode] at hd
  cases hr : opcodeTable[op.toNat]? with
  | none => simp [hr] at hd
  | some row =>
    simp only [hr] at hd
    cases hx : row.read m8 x8 bytes with
    | none => simp [hx] at hd
    | some ir =>
      simp [hx] at hd
      subst hd
      exact row_read_sound (opcodeTable_sound hr) hx

end Sys2Proof
end

