-- ==== Sys2Proof/Laws/Memory.lean ====
section
/-! SUPPORT. The sparse memory: reading after writing, and that every operation keeps the canonical form. -/

namespace Sys2Proof.Machine

/-! ### Reading after writing -/

theorem Memory.read_erase (m : Memory) (k j : Nat) :
    Memory.read (Memory.erase m k) j = if j = k then Memory.fill else Memory.read m j := by
  induction m with
  | nil => simp [Memory.erase, Memory.read]
  | cons c m ih =>
    unfold Memory.erase at ih ⊢
    rw [List.filter_cons]
    by_cases hc : c.1 = k
    · by_cases hj : j = k
      · simpa [hc, hj] using ih
      · simp [hc, hj, Memory.read, Ne.symm hj] at ih ⊢
        simpa [hj] using ih
    · by_cases hj : c.1 = j
      · simp [Memory.read, hj, show j ≠ k from fun h => hc (hj.trans h)]
      · simp [hc, Memory.read, hj] at ih ⊢
        exact ih

theorem Memory.read_insert (m : Memory) (k j : Nat) (v : Byte) (h : ∀ c ∈ m, c.1 ≠ k) :
    Memory.read (Memory.insert k v m) j = if j = k then v else Memory.read m j := by
  induction m with
  | nil =>
    by_cases hj : j = k
    · simp [Memory.insert, Memory.read, hj]
    · simp [Memory.insert, Memory.read, hj, Ne.symm hj]
  | cons c m ih =>
    have hc : c.1 ≠ k := h c (by simp)
    have ih := ih fun d hd => h d (by simp [hd])
    unfold Memory.insert
    split
    · by_cases hj : j = k
      · simp [Memory.read, hj]
      · simp [Memory.read, hj, Ne.symm hj]
    · by_cases hj : c.1 = j
      · simp [Memory.read, hj, show j ≠ k from fun e => hc (hj.trans e)]
      · simp [Memory.read, hj, ih]

/-- A byte reads as it was last written, and a write changes one byte only. -/
theorem Memory.read_write (m : Memory) (k j : Nat) (v : Byte) :
    Memory.read (Memory.write m k v) j = if j = k then v else Memory.read m j := by
  unfold Memory.write
  split
  · rename_i h
    rw [Memory.read_erase, h]
  · rw [Memory.read_insert _ _ _ _ (fun c hc => by simpa using (List.mem_filter.1 hc).2), Memory.read_erase]
    split <;> rfl

/-! ### The canonical form -/

theorem Memory.erase_wf {m : Memory} (h : m.wf) (k : Nat) : Memory.wf (m.erase k) :=
  ⟨h.1.filter _, fun c hc => h.2.1 c (List.mem_filter.1 hc).1, fun c hc => h.2.2 c (List.mem_filter.1 hc).1⟩

theorem Memory.mem_insert {k : Nat} {v : Byte} {m : Memory} {c : Host.Cell} :
    c ∈ Memory.insert k v m ↔ c = (k, v) ∨ c ∈ m := by
  induction m with
  | nil => simp [Memory.insert]
  | cons d m ih =>
    unfold Memory.insert
    split
    · simp
    · simp [ih]; tauto

theorem Memory.insert_sorted {k : Nat} {v : Byte} {m : Memory} (h : m.Pairwise fun c d => c.1 < d.1)
    (hk : ∀ c ∈ m, c.1 ≠ k) : (Memory.insert k v m).Pairwise fun c d => c.1 < d.1 := by
  induction m with
  | nil => simp [Memory.insert]
  | cons d m ih =>
    have hd := List.pairwise_cons.1 h
    unfold Memory.insert
    split
    · rename_i hlt
      refine List.pairwise_cons.2 ⟨fun c hc => ?_, h⟩
      rcases List.mem_cons.1 hc with rfl | hc
      · exact hlt
      · exact Nat.lt_trans hlt (hd.1 c hc)
    · rename_i hge
      refine List.pairwise_cons.2 ⟨fun c hc => ?_, ih hd.2 fun c hc => hk c (by simp [hc])⟩
      rcases Memory.mem_insert.1 hc with rfl | hc
      · have := hk d (by simp)
        simp only at hge ⊢
        omega
      · exact hd.1 c hc

/-- A write keeps the canonical form. -/
theorem Memory.write_wf {m : Memory} (h : m.wf) {k : Nat} (hk : k < 2 ^ 24) (v : Byte) :
    Memory.wf (m.write k v) := by
  unfold Memory.write
  split
  · exact Memory.erase_wf h k
  · rename_i hv
    have he := Memory.erase_wf h k
    refine ⟨Memory.insert_sorted he.1 fun c hc => by simpa using (List.mem_filter.1 hc).2, ?_, ?_⟩ <;>
      intro c hc <;> rcases Memory.mem_insert.1 hc with rfl | hc
    · exact hv
    · exact he.2.1 c hc
    · exact hk
    · exact he.2.2 c hc

/-! ### The power-on contents -/

theorem Memory.ofCells_wf (cells : List Host.Cell) : Memory.wf (Memory.ofCells cells) := by
  induction cells with
  | nil => simp [Memory.ofCells, Memory.wf]
  | cons c cells ih =>
    unfold Memory.ofCells
    split
    · exact Memory.write_wf ih ‹_› _
    · exact ih

/-- The memory of a list of cells reads as the list does. -/
theorem Memory.read_ofCells (cells : List Host.Cell) {k : Nat} (hk : k < 2 ^ 24) :
    Memory.read (Memory.ofCells cells) k = Memory.read cells k := by
  induction cells with
  | nil => rfl
  | cons c cells ih =>
    unfold Memory.ofCells
    split
    · simp only [Memory.read_write, Memory.read, ih, eq_comm]
    · rw [ih, Memory.read, if_neg (by omega)]

/-- Any contents of the addresses from `base` on can be listed. -/
theorem Memory.exists_cells (base n : Nat) (hn : base + n ≤ 2 ^ 24) (w : Nat → Byte) :
    ∃ cells : List Host.Cell, ∀ k < n, Memory.read (Memory.ofCells cells) (base + k) = w k := by
  refine ⟨(List.range n).map fun j => (base + j, w j), fun k hk => ?_⟩
  rw [Memory.read_ofCells _ (by omega)]
  suffices H : ∀ l : List Nat, k ∈ l → Memory.read (l.map fun j => (base + j, w j)) (base + k) = w k from
    H _ (List.mem_range.2 hk)
  intro l hl
  induction l with
  | nil => simp at hl
  | cons j l ih =>
    rw [List.map_cons, Memory.read]
    split
    · rw [show j = k by omega]
    · exact ih ((List.mem_cons.1 hl).resolve_left fun e => by omega)

/-! ### The bus -/

/-- What a bus write does to a bus read (R61): where both addresses name one stored byte, what the write leaves there; else
nothing. -/
theorem busReadAt_busWriteAt (cfg : Config) (mem : Memory) (a b : Addr) (v : Byte) :
    busReadAt cfg (busWriteAt cfg mem a v) b =
      match locate cfg.bus a.toNat, locate cfg.bus b.toNat with
      | .ram h rule, .ram k _ => if k = h then storedByte mem h a v rule else busReadAt cfg mem b
      | _, _ => busReadAt cfg mem b := by
  unfold busReadAt busWriteAt
  cases ha : locate cfg.bus a.toNat with
  | ram h rule =>
    cases hb : locate cfg.bus b.toNat with
    | ram k rule' =>
      simp only [slotRead, Memory.read_write, BitVec.toNat_inj]
    | rom k => simp [slotRead]
    | openBus => simp [slotRead]
  | rom k => rfl
  | openBus => rfl

/-- A bus write keeps the canonical form. -/
theorem busWriteAt_wf {cfg : Config} {mem : Memory} (h : mem.wf) (a : Addr) (v : Byte) :
    Memory.wf (busWriteAt cfg mem a v) := by
  unfold busWriteAt
  split
  · exact Memory.write_wf h (BitVec.isLt _) _
  · exact h
  · exact h

/-- A bus given address by address is a list of regions: for every choice of a kind and a home for each address below `n`
there is a memory map under which each of them has just these. So the lists are no smaller than the buses of R61, whose
writes change at most the byte they address (R66). -/
theorem locate_pointwise (kind : Nat → RegionKind) (home : Nat → Nat) (n a : Nat) (ha : a < n) :
    locate ((List.range n).map fun k => { base := k, size := 1, kind := kind k, home := home k }) a =
      locate [{ base := a, size := 1, kind := kind a, home := home a }] a := by
  suffices H : ∀ l : List Nat, a ∈ l →
      locate (l.map fun k => { base := k, size := 1, kind := kind k, home := home k }) a =
        locate [{ base := a, size := 1, kind := kind a, home := home a }] a from H _ (List.mem_range.2 ha)
  intro l hl
  induction l with
  | nil => simp at hl
  | cons k l ih =>
    by_cases hk : k = a
    · subst hk
      simp [locate]
    · have hn : ¬(k ≤ a ∧ a < k + 1) := by omega
      rw [List.map_cons, locate, if_neg hn]
      exact ih (by simpa [Ne.symm hk] using hl)

end Sys2Proof.Machine
end

