-- ==== Sys2Proof/Laws/State.lean ====
section
/-! SUPPORT. One lemma per field per update: what each named operation of Machine/Flags.lean, Machine/Cycles.lean and
Machine/Ops.lean leaves in each field of the state. -/

namespace Sys2Proof.Machine

/-! ### powerOn -/

@[simp] theorem State.powerOn_mem (cfg : Config) : (State.powerOn cfg).mem = Memory.ofCells cfg.wramInit := rfl
@[simp] theorem State.powerOn_cfg (cfg : Config) : (State.powerOn cfg).cfg = cfg := rfl
@[simp] theorem State.powerOn_diag (cfg : Config) : (State.powerOn cfg).diag = [] := rfl
@[simp] theorem State.powerOn_pc (cfg : Config) :
    (State.powerOn cfg).pc = busReadWordB cfg (Memory.ofCells cfg.wramInit) 0x00 0xFFFC := rfl

/-! ### putFlag -/

@[simp] theorem State.putFlag_a (s : State) (f : Flag) (b : Bool) : (s.putFlag f b).a = s.a := rfl
@[simp] theorem State.putFlag_x (s : State) (f : Flag) (b : Bool) : (s.putFlag f b).x = s.x := rfl
@[simp] theorem State.putFlag_y (s : State) (f : Flag) (b : Bool) : (s.putFlag f b).y = s.y := rfl
@[simp] theorem State.putFlag_sp (s : State) (f : Flag) (b : Bool) : (s.putFlag f b).sp = s.sp := rfl
@[simp] theorem State.putFlag_pc (s : State) (f : Flag) (b : Bool) : (s.putFlag f b).pc = s.pc := rfl
@[simp] theorem State.putFlag_pb (s : State) (f : Flag) (b : Bool) : (s.putFlag f b).pb = s.pb := rfl
@[simp] theorem State.putFlag_db (s : State) (f : Flag) (b : Bool) : (s.putFlag f b).db = s.db := rfl
@[simp] theorem State.putFlag_d (s : State) (f : Flag) (b : Bool) : (s.putFlag f b).d = s.d := rfl
@[simp] theorem State.putFlag_p (s : State) (f : Flag) (b : Bool) : (s.putFlag f b).p = f.put b s.p := rfl
@[simp] theorem State.putFlag_e (s : State) (f : Flag) (b : Bool) : (s.putFlag f b).e = s.e := rfl
@[simp] theorem State.putFlag_stopped (s : State) (f : Flag) (b : Bool) : (s.putFlag f b).stopped = s.stopped := rfl
@[simp] theorem State.putFlag_waiting (s : State) (f : Flag) (b : Bool) : (s.putFlag f b).waiting = s.waiting := rfl
@[simp] theorem State.putFlag_irqPending (s : State) (f : Flag) (b : Bool) :
    (s.putFlag f b).irqPending = s.irqPending := rfl
@[simp] theorem State.putFlag_nmiPending (s : State) (f : Flag) (b : Bool) :
    (s.putFlag f b).nmiPending = s.nmiPending := rfl
@[simp] theorem State.putFlag_cycles (s : State) (f : Flag) (b : Bool) : (s.putFlag f b).cycles = s.cycles := rfl
@[simp] theorem State.putFlag_diag (s : State) (f : Flag) (b : Bool) : (s.putFlag f b).diag = s.diag := rfl
@[simp] theorem State.putFlag_mem (s : State) (f : Flag) (b : Bool) : (s.putFlag f b).mem = s.mem := rfl
@[simp] theorem State.putFlag_cfg (s : State) (f : Flag) (b : Bool) : (s.putFlag f b).cfg = s.cfg := rfl

/-! ### setNZ -/

@[simp] theorem State.setNZ_a (s : State) (w : Width) (v : Word) : (s.setNZ w v).a = s.a := rfl
@[simp] theorem State.setNZ_x (s : State) (w : Width) (v : Word) : (s.setNZ w v).x = s.x := rfl
@[simp] theorem State.setNZ_y (s : State) (w : Width) (v : Word) : (s.setNZ w v).y = s.y := rfl
@[simp] theorem State.setNZ_sp (s : State) (w : Width) (v : Word) : (s.setNZ w v).sp = s.sp := rfl
@[simp] theorem State.setNZ_pc (s : State) (w : Width) (v : Word) : (s.setNZ w v).pc = s.pc := rfl
@[simp] theorem State.setNZ_pb (s : State) (w : Width) (v : Word) : (s.setNZ w v).pb = s.pb := rfl
@[simp] theorem State.setNZ_db (s : State) (w : Width) (v : Word) : (s.setNZ w v).db = s.db := rfl
@[simp] theorem State.setNZ_d (s : State) (w : Width) (v : Word) : (s.setNZ w v).d = s.d := rfl
@[simp] theorem State.setNZ_p (s : State) (w : Width) (v : Word) :
    (s.setNZ w v).p = Flag.z.put (decide (w.trunc v = 0)) (Flag.n.put (w.msb v) s.p) := rfl
@[simp] theorem State.setNZ_e (s : State) (w : Width) (v : Word) : (s.setNZ w v).e = s.e := rfl
@[simp] theorem State.setNZ_stopped (s : State) (w : Width) (v : Word) : (s.setNZ w v).stopped = s.stopped := rfl
@[simp] theorem State.setNZ_waiting (s : State) (w : Width) (v : Word) : (s.setNZ w v).waiting = s.waiting := rfl
@[simp] theorem State.setNZ_irqPending (s : State) (w : Width) (v : Word) :
    (s.setNZ w v).irqPending = s.irqPending := rfl
@[simp] theorem State.setNZ_nmiPending (s : State) (w : Width) (v : Word) :
    (s.setNZ w v).nmiPending = s.nmiPending := rfl
@[simp] theorem State.setNZ_cycles (s : State) (w : Width) (v : Word) : (s.setNZ w v).cycles = s.cycles := rfl
@[simp] theorem State.setNZ_diag (s : State) (w : Width) (v : Word) : (s.setNZ w v).diag = s.diag := rfl
@[simp] theorem State.setNZ_mem (s : State) (w : Width) (v : Word) : (s.setNZ w v).mem = s.mem := rfl
@[simp] theorem State.setNZ_cfg (s : State) (w : Width) (v : Word) : (s.setNZ w v).cfg = s.cfg := rfl

/-! ### compare -/

@[simp] theorem State.compare_a (s : State) (w : Width) (r m : Word) :
    (s.compare w r m).a = s.a := by simp [State.compare]
@[simp] theorem State.compare_x (s : State) (w : Width) (r m : Word) :
    (s.compare w r m).x = s.x := by simp [State.compare]
@[simp] theorem State.compare_y (s : State) (w : Width) (r m : Word) :
    (s.compare w r m).y = s.y := by simp [State.compare]
@[simp] theorem State.compare_sp (s : State) (w : Width) (r m : Word) :
    (s.compare w r m).sp = s.sp := by simp [State.compare]
@[simp] theorem State.compare_pc (s : State) (w : Width) (r m : Word) :
    (s.compare w r m).pc = s.pc := by simp [State.compare]
@[simp] theorem State.compare_pb (s : State) (w : Width) (r m : Word) :
    (s.compare w r m).pb = s.pb := by simp [State.compare]
@[simp] theorem State.compare_db (s : State) (w : Width) (r m : Word) :
    (s.compare w r m).db = s.db := by simp [State.compare]
@[simp] theorem State.compare_d (s : State) (w : Width) (r m : Word) :
    (s.compare w r m).d = s.d := by simp [State.compare]
@[simp] theorem State.compare_p (s : State) (w : Width) (r m : Word) :
    (s.compare w r m).p = ((s.putFlag .c (decide (m.toNat ≤ r.toNat))).setNZ w (w.trunc (r - m))).p := by simp [State.compare]
@[simp] theorem State.compare_e (s : State) (w : Width) (r m : Word) :
    (s.compare w r m).e = s.e := by simp [State.compare]
@[simp] theorem State.compare_stopped (s : State) (w : Width) (r m : Word) :
    (s.compare w r m).stopped = s.stopped := by simp [State.compare]
@[simp] theorem State.compare_waiting (s : State) (w : Width) (r m : Word) :
    (s.compare w r m).waiting = s.waiting := by simp [State.compare]
@[simp] theorem State.compare_irqPending (s : State) (w : Width) (r m : Word) :
    (s.compare w r m).irqPending = s.irqPending := by simp [State.compare]
@[simp] theorem State.compare_nmiPending (s : State) (w : Width) (r m : Word) :
    (s.compare w r m).nmiPending = s.nmiPending := by simp [State.compare]
@[simp] theorem State.compare_cycles (s : State) (w : Width) (r m : Word) :
    (s.compare w r m).cycles = s.cycles := by simp [State.compare]
@[simp] theorem State.compare_diag (s : State) (w : Width) (r m : Word) :
    (s.compare w r m).diag = s.diag := by simp [State.compare]
@[simp] theorem State.compare_mem (s : State) (w : Width) (r m : Word) :
    (s.compare w r m).mem = s.mem := by simp [State.compare]
@[simp] theorem State.compare_cfg (s : State) (w : Width) (r m : Word) :
    (s.compare w r m).cfg = s.cfg := by simp [State.compare]

/-! ### tick -/

@[simp] theorem State.tick_a (s : State) (n : Nat) : (s.tick n).a = s.a := rfl
@[simp] theorem State.tick_x (s : State) (n : Nat) : (s.tick n).x = s.x := rfl
@[simp] theorem State.tick_y (s : State) (n : Nat) : (s.tick n).y = s.y := rfl
@[simp] theorem State.tick_sp (s : State) (n : Nat) : (s.tick n).sp = s.sp := rfl
@[simp] theorem State.tick_pc (s : State) (n : Nat) : (s.tick n).pc = s.pc := rfl
@[simp] theorem State.tick_pb (s : State) (n : Nat) : (s.tick n).pb = s.pb := rfl
@[simp] theorem State.tick_db (s : State) (n : Nat) : (s.tick n).db = s.db := rfl
@[simp] theorem State.tick_d (s : State) (n : Nat) : (s.tick n).d = s.d := rfl
@[simp] theorem State.tick_p (s : State) (n : Nat) : (s.tick n).p = s.p := rfl
@[simp] theorem State.tick_e (s : State) (n : Nat) : (s.tick n).e = s.e := rfl
@[simp] theorem State.tick_stopped (s : State) (n : Nat) : (s.tick n).stopped = s.stopped := rfl
@[simp] theorem State.tick_waiting (s : State) (n : Nat) : (s.tick n).waiting = s.waiting := rfl
@[simp] theorem State.tick_irqPending (s : State) (n : Nat) : (s.tick n).irqPending = s.irqPending := rfl
@[simp] theorem State.tick_nmiPending (s : State) (n : Nat) : (s.tick n).nmiPending = s.nmiPending := rfl
@[simp] theorem State.tick_cycles (s : State) (n : Nat) : (s.tick n).cycles = s.cycles + BitVec.ofNat 64 n := rfl
@[simp] theorem State.tick_diag (s : State) (n : Nat) : (s.tick n).diag = s.diag := rfl
@[simp] theorem State.tick_mem (s : State) (n : Nat) : (s.tick n).mem = s.mem := rfl
@[simp] theorem State.tick_cfg (s : State) (n : Nat) : (s.tick n).cfg = s.cfg := rfl

/-! ### setAcc -/

@[simp] theorem State.setAcc_x (s : State) (w : Width) (v : Word) : (s.setAcc w v).x = s.x := rfl
@[simp] theorem State.setAcc_y (s : State) (w : Width) (v : Word) : (s.setAcc w v).y = s.y := rfl
@[simp] theorem State.setAcc_sp (s : State) (w : Width) (v : Word) : (s.setAcc w v).sp = s.sp := rfl
@[simp] theorem State.setAcc_pc (s : State) (w : Width) (v : Word) : (s.setAcc w v).pc = s.pc := rfl
@[simp] theorem State.setAcc_pb (s : State) (w : Width) (v : Word) : (s.setAcc w v).pb = s.pb := rfl
@[simp] theorem State.setAcc_db (s : State) (w : Width) (v : Word) : (s.setAcc w v).db = s.db := rfl
@[simp] theorem State.setAcc_d (s : State) (w : Width) (v : Word) : (s.setAcc w v).d = s.d := rfl
@[simp] theorem State.setAcc_p (s : State) (w : Width) (v : Word) : (s.setAcc w v).p = s.p := rfl
@[simp] theorem State.setAcc_e (s : State) (w : Width) (v : Word) : (s.setAcc w v).e = s.e := rfl
@[simp] theorem State.setAcc_stopped (s : State) (w : Width) (v : Word) : (s.setAcc w v).stopped = s.stopped := rfl
@[simp] theorem State.setAcc_waiting (s : State) (w : Width) (v : Word) : (s.setAcc w v).waiting = s.waiting := rfl
@[simp] theorem State.setAcc_irqPending (s : State) (w : Width) (v : Word) :
    (s.setAcc w v).irqPending = s.irqPending := rfl
@[simp] theorem State.setAcc_nmiPending (s : State) (w : Width) (v : Word) :
    (s.setAcc w v).nmiPending = s.nmiPending := rfl
@[simp] theorem State.setAcc_cycles (s : State) (w : Width) (v : Word) : (s.setAcc w v).cycles = s.cycles := rfl
@[simp] theorem State.setAcc_diag (s : State) (w : Width) (v : Word) : (s.setAcc w v).diag = s.diag := rfl
@[simp] theorem State.setAcc_mem (s : State) (w : Width) (v : Word) : (s.setAcc w v).mem = s.mem := rfl
@[simp] theorem State.setAcc_cfg (s : State) (w : Width) (v : Word) : (s.setAcc w v).cfg = s.cfg := rfl

/-! ### busWrite -/

@[simp] theorem State.busWrite_a (s : State) (b : Addr) (v : Byte) : (s.busWrite b v).a = s.a := rfl
@[simp] theorem State.busWrite_x (s : State) (b : Addr) (v : Byte) : (s.busWrite b v).x = s.x := rfl
@[simp] theorem State.busWrite_y (s : State) (b : Addr) (v : Byte) : (s.busWrite b v).y = s.y := rfl
@[simp] theorem State.busWrite_sp (s : State) (b : Addr) (v : Byte) : (s.busWrite b v).sp = s.sp := rfl
@[simp] theorem State.busWrite_pc (s : State) (b : Addr) (v : Byte) : (s.busWrite b v).pc = s.pc := rfl
@[simp] theorem State.busWrite_pb (s : State) (b : Addr) (v : Byte) : (s.busWrite b v).pb = s.pb := rfl
@[simp] theorem State.busWrite_db (s : State) (b : Addr) (v : Byte) : (s.busWrite b v).db = s.db := rfl
@[simp] theorem State.busWrite_d (s : State) (b : Addr) (v : Byte) : (s.busWrite b v).d = s.d := rfl
@[simp] theorem State.busWrite_p (s : State) (b : Addr) (v : Byte) : (s.busWrite b v).p = s.p := rfl
@[simp] theorem State.busWrite_e (s : State) (b : Addr) (v : Byte) : (s.busWrite b v).e = s.e := rfl
@[simp] theorem State.busWrite_stopped (s : State) (b : Addr) (v : Byte) : (s.busWrite b v).stopped = s.stopped := rfl
@[simp] theorem State.busWrite_waiting (s : State) (b : Addr) (v : Byte) : (s.busWrite b v).waiting = s.waiting := rfl
@[simp] theorem State.busWrite_irqPending (s : State) (b : Addr) (v : Byte) :
    (s.busWrite b v).irqPending = s.irqPending := rfl
@[simp] theorem State.busWrite_nmiPending (s : State) (b : Addr) (v : Byte) :
    (s.busWrite b v).nmiPending = s.nmiPending := rfl
@[simp] theorem State.busWrite_cycles (s : State) (b : Addr) (v : Byte) : (s.busWrite b v).cycles = s.cycles := rfl
@[simp] theorem State.busWrite_diag (s : State) (b : Addr) (v : Byte) : (s.busWrite b v).diag = s.diag := rfl
@[simp] theorem State.busWrite_mem (s : State) (b : Addr) (v : Byte) :
    (s.busWrite b v).mem = busWriteAt s.cfg s.mem b v := rfl
@[simp] theorem State.busWrite_cfg (s : State) (b : Addr) (v : Byte) : (s.busWrite b v).cfg = s.cfg := rfl

/-! ### writeOp -/

@[simp] theorem State.writeOp_a (s : State) (ea : Ea) (w : Width) (v : Word) :
    (s.writeOp ea w v).a = s.a := by unfold State.writeOp; split <;> rfl
@[simp] theorem State.writeOp_x (s : State) (ea : Ea) (w : Width) (v : Word) :
    (s.writeOp ea w v).x = s.x := by unfold State.writeOp; split <;> rfl
@[simp] theorem State.writeOp_y (s : State) (ea : Ea) (w : Width) (v : Word) :
    (s.writeOp ea w v).y = s.y := by unfold State.writeOp; split <;> rfl
@[simp] theorem State.writeOp_sp (s : State) (ea : Ea) (w : Width) (v : Word) :
    (s.writeOp ea w v).sp = s.sp := by unfold State.writeOp; split <;> rfl
@[simp] theorem State.writeOp_pc (s : State) (ea : Ea) (w : Width) (v : Word) :
    (s.writeOp ea w v).pc = s.pc := by unfold State.writeOp; split <;> rfl
@[simp] theorem State.writeOp_pb (s : State) (ea : Ea) (w : Width) (v : Word) :
    (s.writeOp ea w v).pb = s.pb := by unfold State.writeOp; split <;> rfl
@[simp] theorem State.writeOp_db (s : State) (ea : Ea) (w : Width) (v : Word) :
    (s.writeOp ea w v).db = s.db := by unfold State.writeOp; split <;> rfl
@[simp] theorem State.writeOp_d (s : State) (ea : Ea) (w : Width) (v : Word) :
    (s.writeOp ea w v).d = s.d := by unfold State.writeOp; split <;> rfl
@[simp] theorem State.writeOp_p (s : State) (ea : Ea) (w : Width) (v : Word) :
    (s.writeOp ea w v).p = s.p := by unfold State.writeOp; split <;> rfl
@[simp] theorem State.writeOp_e (s : State) (ea : Ea) (w : Width) (v : Word) :
    (s.writeOp ea w v).e = s.e := by unfold State.writeOp; split <;> rfl
@[simp] theorem State.writeOp_stopped (s : State) (ea : Ea) (w : Width) (v : Word) :
    (s.writeOp ea w v).stopped = s.stopped := by unfold State.writeOp; split <;> rfl
@[simp] theorem State.writeOp_waiting (s : State) (ea : Ea) (w : Width) (v : Word) :
    (s.writeOp ea w v).waiting = s.waiting := by unfold State.writeOp; split <;> rfl
@[simp] theorem State.writeOp_irqPending (s : State) (ea : Ea) (w : Width) (v : Word) :
    (s.writeOp ea w v).irqPending = s.irqPending := by unfold State.writeOp; split <;> rfl
@[simp] theorem State.writeOp_nmiPending (s : State) (ea : Ea) (w : Width) (v : Word) :
    (s.writeOp ea w v).nmiPending = s.nmiPending := by unfold State.writeOp; split <;> rfl
@[simp] theorem State.writeOp_cycles (s : State) (ea : Ea) (w : Width) (v : Word) :
    (s.writeOp ea w v).cycles = s.cycles := by unfold State.writeOp; split <;> rfl
@[simp] theorem State.writeOp_diag (s : State) (ea : Ea) (w : Width) (v : Word) :
    (s.writeOp ea w v).diag = s.diag := by unfold State.writeOp; split <;> rfl
@[simp] theorem State.writeOp_cfg (s : State) (ea : Ea) (w : Width) (v : Word) :
    (s.writeOp ea w v).cfg = s.cfg := by unfold State.writeOp; split <;> rfl

/-! ### push8 -/

@[simp] theorem State.push8_a (s : State) (v : Byte) : (s.push8 v).a = s.a := rfl
@[simp] theorem State.push8_x (s : State) (v : Byte) : (s.push8 v).x = s.x := rfl
@[simp] theorem State.push8_y (s : State) (v : Byte) : (s.push8 v).y = s.y := rfl
@[simp] theorem State.push8_sp (s : State) (v : Byte) : (s.push8 v).sp = stackWrap s.e (s.sp - 1) := rfl
@[simp] theorem State.push8_pc (s : State) (v : Byte) : (s.push8 v).pc = s.pc := rfl
@[simp] theorem State.push8_pb (s : State) (v : Byte) : (s.push8 v).pb = s.pb := rfl
@[simp] theorem State.push8_db (s : State) (v : Byte) : (s.push8 v).db = s.db := rfl
@[simp] theorem State.push8_d (s : State) (v : Byte) : (s.push8 v).d = s.d := rfl
@[simp] theorem State.push8_p (s : State) (v : Byte) : (s.push8 v).p = s.p := rfl
@[simp] theorem State.push8_e (s : State) (v : Byte) : (s.push8 v).e = s.e := rfl
@[simp] theorem State.push8_stopped (s : State) (v : Byte) : (s.push8 v).stopped = s.stopped := rfl
@[simp] theorem State.push8_waiting (s : State) (v : Byte) : (s.push8 v).waiting = s.waiting := rfl
@[simp] theorem State.push8_irqPending (s : State) (v : Byte) : (s.push8 v).irqPending = s.irqPending := rfl
@[simp] theorem State.push8_nmiPending (s : State) (v : Byte) : (s.push8 v).nmiPending = s.nmiPending := rfl
@[simp] theorem State.push8_cycles (s : State) (v : Byte) : (s.push8 v).cycles = s.cycles := rfl
@[simp] theorem State.push8_diag (s : State) (v : Byte) : (s.push8 v).diag = s.diag := rfl
@[simp] theorem State.push8_mem (s : State) (v : Byte) :
    (s.push8 v).mem = busWriteAt s.cfg s.mem (addr24 0x00 s.sp) v := rfl
@[simp] theorem State.push8_cfg (s : State) (v : Byte) : (s.push8 v).cfg = s.cfg := rfl

/-! ### push16 -/

@[simp] theorem State.push16_a (s : State) (v : Word) : (s.push16 v).a = s.a := by simp [State.push16]
@[simp] theorem State.push16_x (s : State) (v : Word) : (s.push16 v).x = s.x := by simp [State.push16]
@[simp] theorem State.push16_y (s : State) (v : Word) : (s.push16 v).y = s.y := by simp [State.push16]
@[simp] theorem State.push16_sp (s : State) (v : Word) :
    (s.push16 v).sp = stackWrap s.e (stackWrap s.e (s.sp - 1) - 1) := by simp [State.push16]
@[simp] theorem State.push16_pc (s : State) (v : Word) : (s.push16 v).pc = s.pc := by simp [State.push16]
@[simp] theorem State.push16_pb (s : State) (v : Word) : (s.push16 v).pb = s.pb := by simp [State.push16]
@[simp] theorem State.push16_db (s : State) (v : Word) : (s.push16 v).db = s.db := by simp [State.push16]
@[simp] theorem State.push16_d (s : State) (v : Word) : (s.push16 v).d = s.d := by simp [State.push16]
@[simp] theorem State.push16_p (s : State) (v : Word) : (s.push16 v).p = s.p := by simp [State.push16]
@[simp] theorem State.push16_e (s : State) (v : Word) : (s.push16 v).e = s.e := by simp [State.push16]
@[simp] theorem State.push16_stopped (s : State) (v : Word) : (s.push16 v).stopped = s.stopped := by simp [State.push16]
@[simp] theorem State.push16_waiting (s : State) (v : Word) : (s.push16 v).waiting = s.waiting := by simp [State.push16]
@[simp] theorem State.push16_irqPending (s : State) (v : Word) :
    (s.push16 v).irqPending = s.irqPending := by simp [State.push16]
@[simp] theorem State.push16_nmiPending (s : State) (v : Word) :
    (s.push16 v).nmiPending = s.nmiPending := by simp [State.push16]
@[simp] theorem State.push16_cycles (s : State) (v : Word) : (s.push16 v).cycles = s.cycles := by simp [State.push16]
@[simp] theorem State.push16_diag (s : State) (v : Word) : (s.push16 v).diag = s.diag := by simp [State.push16]
@[simp] theorem State.push16_mem (s : State) (v : Word) :
    (s.push16 v).mem = ((s.push8 (hi v)).push8 (lo v)).mem := by simp [State.push16]
@[simp] theorem State.push16_cfg (s : State) (v : Word) : (s.push16 v).cfg = s.cfg := by simp [State.push16]

/-! ### pull8 -/

@[simp] theorem State.pull8_a (s : State) : (s.pull8.2).a = s.a := rfl
@[simp] theorem State.pull8_x (s : State) : (s.pull8.2).x = s.x := rfl
@[simp] theorem State.pull8_y (s : State) : (s.pull8.2).y = s.y := rfl
@[simp] theorem State.pull8_sp (s : State) : (s.pull8.2).sp = stackWrap s.e (s.sp + 1) := rfl
@[simp] theorem State.pull8_pc (s : State) : (s.pull8.2).pc = s.pc := rfl
@[simp] theorem State.pull8_pb (s : State) : (s.pull8.2).pb = s.pb := rfl
@[simp] theorem State.pull8_db (s : State) : (s.pull8.2).db = s.db := rfl
@[simp] theorem State.pull8_d (s : State) : (s.pull8.2).d = s.d := rfl
@[simp] theorem State.pull8_p (s : State) : (s.pull8.2).p = s.p := rfl
@[simp] theorem State.pull8_e (s : State) : (s.pull8.2).e = s.e := rfl
@[simp] theorem State.pull8_stopped (s : State) : (s.pull8.2).stopped = s.stopped := rfl
@[simp] theorem State.pull8_waiting (s : State) : (s.pull8.2).waiting = s.waiting := rfl
@[simp] theorem State.pull8_irqPending (s : State) : (s.pull8.2).irqPending = s.irqPending := rfl
@[simp] theorem State.pull8_nmiPending (s : State) : (s.pull8.2).nmiPending = s.nmiPending := rfl
@[simp] theorem State.pull8_cycles (s : State) : (s.pull8.2).cycles = s.cycles := rfl
@[simp] theorem State.pull8_diag (s : State) : (s.pull8.2).diag = s.diag := rfl
@[simp] theorem State.pull8_mem (s : State) : (s.pull8.2).mem = s.mem := rfl
@[simp] theorem State.pull8_cfg (s : State) : (s.pull8.2).cfg = s.cfg := rfl

/-! ### pull16 -/

@[simp] theorem State.pull16_a (s : State) : (s.pull16.2).a = s.a := by simp [State.pull16]
@[simp] theorem State.pull16_x (s : State) : (s.pull16.2).x = s.x := by simp [State.pull16]
@[simp] theorem State.pull16_y (s : State) : (s.pull16.2).y = s.y := by simp [State.pull16]
@[simp] theorem State.pull16_sp (s : State) :
    (s.pull16.2).sp = stackWrap s.e (stackWrap s.e (s.sp + 1) + 1) := by simp [State.pull16]
@[simp] theorem State.pull16_pc (s : State) : (s.pull16.2).pc = s.pc := by simp [State.pull16]
@[simp] theorem State.pull16_pb (s : State) : (s.pull16.2).pb = s.pb := by simp [State.pull16]
@[simp] theorem State.pull16_db (s : State) : (s.pull16.2).db = s.db := by simp [State.pull16]
@[simp] theorem State.pull16_d (s : State) : (s.pull16.2).d = s.d := by simp [State.pull16]
@[simp] theorem State.pull16_p (s : State) : (s.pull16.2).p = s.p := by simp [State.pull16]
@[simp] theorem State.pull16_e (s : State) : (s.pull16.2).e = s.e := by simp [State.pull16]
@[simp] theorem State.pull16_stopped (s : State) : (s.pull16.2).stopped = s.stopped := by simp [State.pull16]
@[simp] theorem State.pull16_waiting (s : State) : (s.pull16.2).waiting = s.waiting := by simp [State.pull16]
@[simp] theorem State.pull16_irqPending (s : State) : (s.pull16.2).irqPending = s.irqPending := by simp [State.pull16]
@[simp] theorem State.pull16_nmiPending (s : State) : (s.pull16.2).nmiPending = s.nmiPending := by simp [State.pull16]
@[simp] theorem State.pull16_cycles (s : State) : (s.pull16.2).cycles = s.cycles := by simp [State.pull16]
@[simp] theorem State.pull16_diag (s : State) : (s.pull16.2).diag = s.diag := by simp [State.pull16]
@[simp] theorem State.pull16_mem (s : State) : (s.pull16.2).mem = s.mem := by simp [State.pull16]
@[simp] theorem State.pull16_cfg (s : State) : (s.pull16.2).cfg = s.cfg := by simp [State.pull16]

/-! ### pushW -/

@[simp] theorem State.pushW_a (s : State) (w : Width) (v : Word) : (s.pushW w v).a = s.a := by cases w <;> rfl
@[simp] theorem State.pushW_x (s : State) (w : Width) (v : Word) : (s.pushW w v).x = s.x := by cases w <;> rfl
@[simp] theorem State.pushW_y (s : State) (w : Width) (v : Word) : (s.pushW w v).y = s.y := by cases w <;> rfl
@[simp] theorem State.pushW_pc (s : State) (w : Width) (v : Word) : (s.pushW w v).pc = s.pc := by cases w <;> rfl
@[simp] theorem State.pushW_pb (s : State) (w : Width) (v : Word) : (s.pushW w v).pb = s.pb := by cases w <;> rfl
@[simp] theorem State.pushW_db (s : State) (w : Width) (v : Word) : (s.pushW w v).db = s.db := by cases w <;> rfl
@[simp] theorem State.pushW_d (s : State) (w : Width) (v : Word) : (s.pushW w v).d = s.d := by cases w <;> rfl
@[simp] theorem State.pushW_p (s : State) (w : Width) (v : Word) : (s.pushW w v).p = s.p := by cases w <;> rfl
@[simp] theorem State.pushW_e (s : State) (w : Width) (v : Word) : (s.pushW w v).e = s.e := by cases w <;> rfl
@[simp] theorem State.pushW_stopped (s : State) (w : Width) (v : Word) :
    (s.pushW w v).stopped = s.stopped := by cases w <;> rfl
@[simp] theorem State.pushW_waiting (s : State) (w : Width) (v : Word) :
    (s.pushW w v).waiting = s.waiting := by cases w <;> rfl
@[simp] theorem State.pushW_irqPending (s : State) (w : Width) (v : Word) :
    (s.pushW w v).irqPending = s.irqPending := by cases w <;> rfl
@[simp] theorem State.pushW_nmiPending (s : State) (w : Width) (v : Word) :
    (s.pushW w v).nmiPending = s.nmiPending := by cases w <;> rfl
@[simp] theorem State.pushW_cycles (s : State) (w : Width) (v : Word) :
    (s.pushW w v).cycles = s.cycles := by cases w <;> rfl
@[simp] theorem State.pushW_diag (s : State) (w : Width) (v : Word) : (s.pushW w v).diag = s.diag := by cases w <;> rfl
@[simp] theorem State.pushW_cfg (s : State) (w : Width) (v : Word) : (s.pushW w v).cfg = s.cfg := by cases w <;> rfl

/-! ### pullW -/

@[simp] theorem State.pullW_a (s : State) (w : Width) : ((s.pullW w).2).a = s.a := by cases w <;> rfl
@[simp] theorem State.pullW_x (s : State) (w : Width) : ((s.pullW w).2).x = s.x := by cases w <;> rfl
@[simp] theorem State.pullW_y (s : State) (w : Width) : ((s.pullW w).2).y = s.y := by cases w <;> rfl
@[simp] theorem State.pullW_pc (s : State) (w : Width) : ((s.pullW w).2).pc = s.pc := by cases w <;> rfl
@[simp] theorem State.pullW_pb (s : State) (w : Width) : ((s.pullW w).2).pb = s.pb := by cases w <;> rfl
@[simp] theorem State.pullW_db (s : State) (w : Width) : ((s.pullW w).2).db = s.db := by cases w <;> rfl
@[simp] theorem State.pullW_d (s : State) (w : Width) : ((s.pullW w).2).d = s.d := by cases w <;> rfl
@[simp] theorem State.pullW_p (s : State) (w : Width) : ((s.pullW w).2).p = s.p := by cases w <;> rfl
@[simp] theorem State.pullW_e (s : State) (w : Width) : ((s.pullW w).2).e = s.e := by cases w <;> rfl
@[simp] theorem State.pullW_stopped (s : State) (w : Width) : ((s.pullW w).2).stopped = s.stopped := by cases w <;> rfl
@[simp] theorem State.pullW_waiting (s : State) (w : Width) : ((s.pullW w).2).waiting = s.waiting := by cases w <;> rfl
@[simp] theorem State.pullW_irqPending (s : State) (w : Width) :
    ((s.pullW w).2).irqPending = s.irqPending := by cases w <;> rfl
@[simp] theorem State.pullW_nmiPending (s : State) (w : Width) :
    ((s.pullW w).2).nmiPending = s.nmiPending := by cases w <;> rfl
@[simp] theorem State.pullW_cycles (s : State) (w : Width) : ((s.pullW w).2).cycles = s.cycles := by cases w <;> rfl
@[simp] theorem State.pullW_diag (s : State) (w : Width) : ((s.pullW w).2).diag = s.diag := by cases w <;> rfl
@[simp] theorem State.pullW_mem (s : State) (w : Width) : ((s.pullW w).2).mem = s.mem := by cases w <;> rfl
@[simp] theorem State.pullW_cfg (s : State) (w : Width) : ((s.pullW w).2).cfg = s.cfg := by cases w <;> rfl

/-! ### enforceModes -/

@[simp] theorem State.enforceModes_a (s : State) :
    (s.enforceModes).a = s.a := by
  simp only [State.enforceModes]; split <;> split <;> rfl
@[simp] theorem State.enforceModes_sp (s : State) :
    (s.enforceModes).sp = if s.e then word (lo s.sp) 0x01 else s.sp := by
  simp only [State.enforceModes]; split <;> split <;> rfl
@[simp] theorem State.enforceModes_pc (s : State) :
    (s.enforceModes).pc = s.pc := by
  simp only [State.enforceModes]; split <;> split <;> rfl
@[simp] theorem State.enforceModes_pb (s : State) :
    (s.enforceModes).pb = s.pb := by
  simp only [State.enforceModes]; split <;> split <;> rfl
@[simp] theorem State.enforceModes_db (s : State) :
    (s.enforceModes).db = s.db := by
  simp only [State.enforceModes]; split <;> split <;> rfl
@[simp] theorem State.enforceModes_d (s : State) :
    (s.enforceModes).d = s.d := by
  simp only [State.enforceModes]; split <;> split <;> rfl
@[simp] theorem State.enforceModes_p (s : State) :
    (s.enforceModes).p = if s.e then Flag.x.put true (Flag.m.put true s.p) else s.p := by
  simp only [State.enforceModes]; split <;> split <;> rfl
@[simp] theorem State.enforceModes_e (s : State) :
    (s.enforceModes).e = s.e := by
  simp only [State.enforceModes]; split <;> split <;> rfl
@[simp] theorem State.enforceModes_stopped (s : State) :
    (s.enforceModes).stopped = s.stopped := by
  simp only [State.enforceModes]; split <;> split <;> rfl
@[simp] theorem State.enforceModes_waiting (s : State) :
    (s.enforceModes).waiting = s.waiting := by
  simp only [State.enforceModes]; split <;> split <;> rfl
@[simp] theorem State.enforceModes_irqPending (s : State) :
    (s.enforceModes).irqPending = s.irqPending := by
  simp only [State.enforceModes]; split <;> split <;> rfl
@[simp] theorem State.enforceModes_nmiPending (s : State) :
    (s.enforceModes).nmiPending = s.nmiPending := by
  simp only [State.enforceModes]; split <;> split <;> rfl
@[simp] theorem State.enforceModes_cycles (s : State) :
    (s.enforceModes).cycles = s.cycles := by
  simp only [State.enforceModes]; split <;> split <;> rfl
@[simp] theorem State.enforceModes_diag (s : State) :
    (s.enforceModes).diag = s.diag := by
  simp only [State.enforceModes]; split <;> split <;> rfl
@[simp] theorem State.enforceModes_mem (s : State) :
    (s.enforceModes).mem = s.mem := by
  simp only [State.enforceModes]; split <;> split <;> rfl
@[simp] theorem State.enforceModes_cfg (s : State) :
    (s.enforceModes).cfg = s.cfg := by
  simp only [State.enforceModes]; split <;> split <;> rfl

/-! ### setP -/

@[simp] theorem State.setP_a (s : State) (v : Byte) : (s.setP v).a = s.a := by simp [State.setP]
@[simp] theorem State.setP_sp (s : State) (v : Byte) :
    (s.setP v).sp = if s.e then word (lo s.sp) 0x01 else s.sp := by simp [State.setP]
@[simp] theorem State.setP_pc (s : State) (v : Byte) : (s.setP v).pc = s.pc := by simp [State.setP]
@[simp] theorem State.setP_pb (s : State) (v : Byte) : (s.setP v).pb = s.pb := by simp [State.setP]
@[simp] theorem State.setP_db (s : State) (v : Byte) : (s.setP v).db = s.db := by simp [State.setP]
@[simp] theorem State.setP_d (s : State) (v : Byte) : (s.setP v).d = s.d := by simp [State.setP]
@[simp] theorem State.setP_p (s : State) (v : Byte) :
    (s.setP v).p = if s.e then Flag.x.put true (Flag.m.put true v) else v := by simp [State.setP]
@[simp] theorem State.setP_e (s : State) (v : Byte) : (s.setP v).e = s.e := by simp [State.setP]
@[simp] theorem State.setP_stopped (s : State) (v : Byte) : (s.setP v).stopped = s.stopped := by simp [State.setP]
@[simp] theorem State.setP_waiting (s : State) (v : Byte) : (s.setP v).waiting = s.waiting := by simp [State.setP]
@[simp] theorem State.setP_irqPending (s : State) (v : Byte) :
    (s.setP v).irqPending = s.irqPending := by simp [State.setP]
@[simp] theorem State.setP_nmiPending (s : State) (v : Byte) :
    (s.setP v).nmiPending = s.nmiPending := by simp [State.setP]
@[simp] theorem State.setP_cycles (s : State) (v : Byte) : (s.setP v).cycles = s.cycles := by simp [State.setP]
@[simp] theorem State.setP_diag (s : State) (v : Byte) : (s.setP v).diag = s.diag := by simp [State.setP]
@[simp] theorem State.setP_mem (s : State) (v : Byte) : (s.setP v).mem = s.mem := by simp [State.setP]
@[simp] theorem State.setP_cfg (s : State) (v : Byte) : (s.setP v).cfg = s.cfg := by simp [State.setP]

/-! ### pushFrame -/

@[simp] theorem State.pushFrame_a (s : State) (ev : TrapEvent) :
    (s.pushFrame ev).a = s.a := by
  unfold State.pushFrame; split <;> simp
@[simp] theorem State.pushFrame_x (s : State) (ev : TrapEvent) :
    (s.pushFrame ev).x = s.x := by
  unfold State.pushFrame; split <;> simp
@[simp] theorem State.pushFrame_y (s : State) (ev : TrapEvent) :
    (s.pushFrame ev).y = s.y := by
  unfold State.pushFrame; split <;> simp
@[simp] theorem State.pushFrame_pc (s : State) (ev : TrapEvent) :
    (s.pushFrame ev).pc = s.pc := by
  unfold State.pushFrame; split <;> simp
@[simp] theorem State.pushFrame_pb (s : State) (ev : TrapEvent) :
    (s.pushFrame ev).pb = s.pb := by
  unfold State.pushFrame; split <;> simp
@[simp] theorem State.pushFrame_db (s : State) (ev : TrapEvent) :
    (s.pushFrame ev).db = s.db := by
  unfold State.pushFrame; split <;> simp
@[simp] theorem State.pushFrame_d (s : State) (ev : TrapEvent) :
    (s.pushFrame ev).d = s.d := by
  unfold State.pushFrame; split <;> simp
@[simp] theorem State.pushFrame_p (s : State) (ev : TrapEvent) :
    (s.pushFrame ev).p = s.p := by
  unfold State.pushFrame; split <;> simp
@[simp] theorem State.pushFrame_e (s : State) (ev : TrapEvent) :
    (s.pushFrame ev).e = s.e := by
  unfold State.pushFrame; split <;> simp
@[simp] theorem State.pushFrame_stopped (s : State) (ev : TrapEvent) :
    (s.pushFrame ev).stopped = s.stopped := by
  unfold State.pushFrame; split <;> simp
@[simp] theorem State.pushFrame_waiting (s : State) (ev : TrapEvent) :
    (s.pushFrame ev).waiting = s.waiting := by
  unfold State.pushFrame; split <;> simp
@[simp] theorem State.pushFrame_irqPending (s : State) (ev : TrapEvent) :
    (s.pushFrame ev).irqPending = s.irqPending := by
  unfold State.pushFrame; split <;> simp
@[simp] theorem State.pushFrame_nmiPending (s : State) (ev : TrapEvent) :
    (s.pushFrame ev).nmiPending = s.nmiPending := by
  unfold State.pushFrame; split <;> simp
@[simp] theorem State.pushFrame_cycles (s : State) (ev : TrapEvent) :
    (s.pushFrame ev).cycles = s.cycles := by
  unfold State.pushFrame; split <;> simp
@[simp] theorem State.pushFrame_diag (s : State) (ev : TrapEvent) :
    (s.pushFrame ev).diag = s.diag := by
  unfold State.pushFrame; split <;> simp
@[simp] theorem State.pushFrame_cfg (s : State) (ev : TrapEvent) :
    (s.pushFrame ev).cfg = s.cfg := by
  unfold State.pushFrame; split <;> simp

end Sys2Proof.Machine
end

