-- ==== Sys2Proof/Laws/Ops.lean ====
section
/-! SUPPORT. One lemma per shared operation: what the flag operations, the bus accesses, the stack, the writes of P and the
trap entry do, so that no proof unfolds them. -/

namespace Sys2Proof.Machine

/-! ### Flags -/

theorem State.flag_congr {s t : State} (h : t.p = s.p) (f : Flag) : t.flag f = s.flag f := by
  simp [State.flag, h]

@[simp] theorem State.flag_putFlag (s : State) (f g : Flag) (b : Bool) :
    (s.putFlag f b).flag g = if g = f then b else s.flag g := by
  simp [State.flag, getLsbD_put]

@[simp] theorem State.flag_setNZ (s : State) (w : Width) (v : Word) (g : Flag) :
    (s.setNZ w v).flag g = if g = .z then decide (w.trunc v = 0) else if g = .n then w.msb v else s.flag g := by
  simp [State.setNZ]

@[simp] theorem State.flag_compare (s : State) (w : Width) (r m : Word) (g : Flag) :
    (s.compare w r m).flag g =
      if g = .z then decide (w.trunc (w.trunc (r - m)) = 0)
      else if g = .n then w.msb (w.trunc (r - m))
      else if g = .c then decide (m.toNat ≤ r.toNat) else s.flag g := by
  simp [State.compare]

@[simp] theorem State.flag_tick (s : State) (n : Nat) (f : Flag) : (s.tick n).flag f = s.flag f := rfl
@[simp] theorem State.flag_setAcc (s : State) (w : Width) (v : Word) (f : Flag) :
    (s.setAcc w v).flag f = s.flag f := rfl
@[simp] theorem State.flag_busWrite (s : State) (a : Addr) (v : Byte) (f : Flag) :
    (s.busWrite a v).flag f = s.flag f := rfl
@[simp] theorem State.flag_writeOp (s : State) (ea : Ea) (w : Width) (v : Word) (f : Flag) :
    (s.writeOp ea w v).flag f = s.flag f := State.flag_congr (by simp) f
@[simp] theorem State.flag_push8 (s : State) (v : Byte) (f : Flag) : (s.push8 v).flag f = s.flag f := rfl
@[simp] theorem State.flag_push16 (s : State) (v : Word) (f : Flag) : (s.push16 v).flag f = s.flag f := rfl
@[simp] theorem State.flag_pushW (s : State) (w : Width) (v : Word) (f : Flag) :
    (s.pushW w v).flag f = s.flag f := State.flag_congr (by simp) f
@[simp] theorem State.flag_pull8 (s : State) (f : Flag) : s.pull8.2.flag f = s.flag f := rfl
@[simp] theorem State.flag_pull16 (s : State) (f : Flag) : s.pull16.2.flag f = s.flag f := rfl
@[simp] theorem State.flag_pullW (s : State) (w : Width) (f : Flag) : (s.pullW w).2.flag f = s.flag f :=
  State.flag_congr (by simp) f

theorem State.wA_congr {s t : State} (h : t.p = s.p) : t.wA = s.wA := by
  unfold State.wA
  rw [State.flag_congr h]

theorem State.wX_congr {s t : State} (h : t.p = s.p) : t.wX = s.wX := by
  unfold State.wX
  rw [State.flag_congr h]

/-- A value is zero at a width exactly when its number is, modulo the width. -/
theorem trunc_eq_zero (w : Width) (v : Word) : w.trunc v = 0 ↔ v.toNat % 2 ^ w.bits = 0 := by
  rw [← trunc_toNat]
  exact ⟨fun h => by simp [h], fun h => BitVec.eq_of_toNat_eq (by simpa using h)⟩

/-- A state whose N and Z are those `SetNZ` writes has the N and Z of the value. -/
theorem NZof_of_flags {t : State} {w : Width} {v : Word} (hn : t.flag .n = w.msb v)
    (hz : t.flag .z = decide (w.trunc v = 0)) : NZof t w v :=
  ⟨hn, by rw [hz, decide_eq_true_iff, trunc_eq_zero]⟩

theorem NZof_setNZ (s : State) (w : Width) (v : Word) : NZof (s.setNZ w v) w v :=
  NZof_of_flags (by simp) (by simp)

/-! ### The terms of a cycle expression (R110) -/

theorem State.m16_eq (s : State) : (!s.flag .m).toNat = s.m16 := by
  unfold State.m16
  cases s.flag .m <;> rfl

theorem State.x16_eq (s : State) : (!s.flag .x).toNat = s.x16 := by
  unfold State.x16
  cases s.flag .x <;> rfl

theorem State.e0_eq (s : State) : (!s.e).toNat = s.e0 := by
  unfold State.e0
  cases s.e <;> rfl

theorem State.dl_eq (s : State) : s.dlPenalty.toNat = s.dl := by
  unfold State.dl State.dlPenalty
  split
  · rename_i h; rw [decide_eq_false (by simpa using h)]; rfl
  · rename_i h; rw [decide_eq_true h]; rfl

theorem State.px_eq (s : State) (r : Resolved) : r.px.toNat = s.px r := rfl

/-- The value of a cycle expression, in the terms of Safety.lean. -/
theorem cycleValue_eq (c : CycleExpr) (s : State) (pen : Penalty) :
    cycleValue c s pen = c.base + c.m16 * s.m16 + c.x16 * s.x16 + c.dl * pen.dl.toNat + c.px * pen.px.toNat +
      c.t * pen.t.toNat + c.tx * pen.tx.toNat + c.e0 * s.e0 := by
  rw [cycleValue, State.m16_eq, State.x16_eq, State.e0_eq]

/-- A cycle expression lies between its constant and the sum of its coefficients. -/
theorem cycleValue_bounds (c : CycleExpr) (s : State) (pen : Penalty) :
    c.base ≤ cycleValue c s pen ∧
      cycleValue c s pen ≤ c.base + c.m16 + c.x16 + c.dl + c.px + c.t + c.tx + c.e0 := by
  have hk : ∀ (k : Nat) (b : Bool), k * b.toNat ≤ k := fun k b => by cases b <;> simp
  have h1 := hk c.m16 (!s.flag .m)
  have h2 := hk c.x16 (!s.flag .x)
  have h3 := hk c.dl pen.dl
  have h4 := hk c.px pen.px
  have h5 := hk c.t pen.t
  have h6 := hk c.tx pen.tx
  have h7 := hk c.e0 (!s.e)
  rw [cycleValue]
  omega

/-- The row of an instruction's opcode in the default table is its expression of R111. -/
theorem defaultCycles_row (i : Instr) : defaultCycles.row i.opcode = cycleExpr i := by cases i <;> rfl

/-- With the default table, an instruction adds the value of its expression of R111. -/
theorem cost_default {s : State} (h : s.cfg.baseCycles = defaultCycles) (i : Instr) (pen : Penalty) :
    cost i s pen = cycleValue (cycleExpr i) s pen := by
  rw [cost, h, defaultCycles_row]

/-- With any table of positive constants, an instruction adds a cycle at least (R37). -/
theorem cost_pos {s : State} (h : s.cfg.baseCycles.wf) (i : Instr) (pen : Penalty) : 1 ≤ cost i s pen :=
  (h.1 _ (by simp [CycleTable.row])).trans (cycleValue_bounds _ s pen).1

/-- The cycles that a claim names are those the instruction adds, if its number is that of R111. -/
theorem State.charge_eq {s : State} {i : Instr} {n : Nat} {pen : Penalty} (h : cycleValue (cycleExpr i) s pen = n) :
    s.charge i n pen = cost i s pen := by
  unfold State.charge
  split
  · rename_i hd
    rw [cost_default hd, h]
  · rfl

/-- So an instruction that ends with `finish` charges its number of R111. -/
theorem finish_charge {s : State} {i : Instr} {n : Nat} {pen : Penalty} (t : State)
    (h : cycleValue (cycleExpr i) s pen = n) : finish i s t pen = .next (t.tick (s.charge i n pen)) := by
  rw [finish, State.charge_eq h]

/-- Likewise for an entry (R405). -/
theorem State.chargeEntry_eq (s : State) (ev : TrapEvent) : s.chargeEntry ev = s.entryCost ev := by
  unfold State.chargeEntry
  split
  · rename_i hd
    have h : s.entryCost ev = cycleValue trapCost s := by
      cases ev
      · exact cost_default hd _ _
      · exact cost_default hd _ _
      · rw [State.entryCost, hd]; rfl
      · rw [State.entryCost, hd]; rfl
    rw [h, cycleValue_eq]
    simp [trapCost]
  · rfl

/-! ### Memory reads -/

/-- What the bus answers depends on memory and the parameters only. -/
theorem State.busRead_congr {s t : State} (hm : t.mem = s.mem) (hc : t.cfg = s.cfg) (b : Addr) :
    t.busRead b = s.busRead b := by
  simp [State.busRead, hm, hc]

theorem State.slot_congr {s t : State} (hc : t.cfg = s.cfg) (b : Addr) : t.slot b = s.slot b := by
  simp [State.slot, hc]

theorem State.writable_congr {s t : State} (hc : t.cfg = s.cfg) (a : Addr) : t.writable a = s.writable a := by
  unfold State.writable
  rw [State.slot_congr hc]

theorem State.home_congr {s t : State} (hc : t.cfg = s.cfg) (b : Addr) : t.home b = s.home b := by
  unfold State.home
  rw [State.slot_congr hc]

theorem State.sameByte_congr {s t : State} (hc : t.cfg = s.cfg) (a b : Addr) : t.sameByte a b ↔ s.sameByte a b := by
  simp only [State.sameByte, State.home_congr hc]

/-- A stored byte reads as what memory holds under its home address. -/
theorem State.busRead_of_home {s : State} {a k : Addr} (h : s.home a = some k) : s.busRead a = s.mem.read k.toNat := by
  unfold State.home State.slot at h
  unfold State.busRead busReadAt
  split at h
  · rename_i heq; rw [heq]; cases h; rfl
  · cases h
  · cases h

/-- A read/write byte takes the byte written. -/
theorem State.stored_of_writable {s : State} {a : Addr} (h : s.writable a = true) (v : Byte) : s.stored a v = v := by
  unfold State.writable at h
  unfold State.stored
  split at h
  · rename_i heq; rw [heq]; rfl
  · cases h

theorem State.home_of_writable {s : State} {a : Addr} (h : s.writable a = true) : s.home a ≠ none := by
  unfold State.writable at h
  unfold State.home
  split at h
  · rename_i heq; rw [heq]; simp
  · cases h

/-- A read after a write (R61): what the write leaves in the byte addressed, every other byte as before. -/
theorem State.busRead_busWrite (s : State) (a b : Addr) (v : Byte) :
    (s.busWrite a v).busRead b = if s.sameByte a b then s.stored a v else s.busRead b := by
  unfold State.busRead State.busWrite State.sameByte State.stored State.home State.slot
  simp only [busReadAt_busWriteAt]
  cases locate s.cfg.bus a.toNat <;> cases locate s.cfg.bus b.toNat <;> simp

/-- So a byte written to a read/write byte reads back. -/
theorem State.busRead_busWrite_writable {s : State} {a : Addr} (h : s.writable a = true) (b : Addr) (v : Byte) :
    (s.busWrite a v).busRead b = if s.home b = s.home a then v else s.busRead b := by
  rw [State.busRead_busWrite, State.stored_of_writable h]
  simp [State.sameByte, State.home_of_writable h]

@[simp] theorem State.slot_busWrite (s : State) (a b : Addr) (v : Byte) : (s.busWrite a v).slot b = s.slot b := rfl
@[simp] theorem State.home_busWrite (s : State) (a b : Addr) (v : Byte) : (s.busWrite a v).home b = s.home b := rfl
@[simp] theorem State.writable_busWrite (s : State) (a b : Addr) (v : Byte) :
    (s.busWrite a v).writable b = s.writable b := rfl

/-! ### Stores -/

@[simp] theorem State.busWrites_nil (s : State) : s.busWrites [] = s := rfl

theorem State.busWrites_append (s : State) (cs : List (Addr × Byte)) (c : Addr × Byte) :
    s.busWrites (cs ++ [c]) = (s.busWrites cs).busWrite c.1 c.2 := by
  simp [State.busWrites, List.foldl_append]

@[simp] theorem State.busWrites_cfg (s : State) (cs : List (Addr × Byte)) : (s.busWrites cs).cfg = s.cfg := by
  induction cs using List.reverseRecOn with
  | nil => rfl
  | append_singleton cs c ih => rw [State.busWrites_append, State.busWrite_cfg, ih]

/-- What stores leave depends on memory and the parameters only. -/
theorem State.busWrites_congr {s t : State} (hm : t.mem = s.mem) (hc : t.cfg = s.cfg) (cs : List (Addr × Byte)) :
    (t.busWrites cs).mem = (s.busWrites cs).mem := by
  induction cs using List.reverseRecOn with
  | nil => exact hm
  | append_singleton cs c ih =>
    rw [State.busWrites_append, State.busWrites_append, State.busWrite_mem, State.busWrite_mem, ih,
      State.busWrites_cfg, State.busWrites_cfg, hc]

/-- Outside the stored bytes an address reads as before. -/
theorem State.busRead_busWrites_of_outside (s : State) (cs : List (Addr × Byte)) (b : Addr)
    (h : ∀ c ∈ cs, ¬s.sameByte c.1 b) : (s.busWrites cs).busRead b = s.busRead b := by
  induction cs using List.reverseRecOn with
  | nil => rfl
  | append_singleton cs c ih =>
    rw [State.busWrites_append, State.busRead_busWrite,
      if_neg fun hb => h c (by simp) ((State.sameByte_congr (s.busWrites_cfg cs) _ _).1 hb)]
    exact ih fun d hd => h d (by simp [hd])

/-- The memory that the stores leave says all of `Stores`. -/
theorem Stores.of_mem {s t : State} {cs : List (Addr × Byte)} (hc : t.cfg = s.cfg)
    (hm : t.mem = (s.busWrites cs).mem) : Stores s t cs := by
  have h : ∀ b, t.busRead b = (s.busWrites cs).busRead b := fun b =>
    State.busRead_congr hm (hc.trans (s.busWrites_cfg cs).symm) b
  exact ⟨hc, hm, fun b hb => (h b).trans (s.busRead_busWrites_of_outside cs b hb), h⟩

/-- An operation that leaves memory and the parameters stores nothing. -/
theorem Stores.none {s t : State} (hm : t.mem = s.mem) (hc : t.cfg = s.cfg) : Stores s t [] :=
  Stores.of_mem hc hm

/-- Stores are seen through memory and the parameters only. -/
theorem Stores.congr {s t u : State} {cs : List (Addr × Byte)} (h : Stores s t cs) (hm : u.mem = t.mem)
    (hc : u.cfg = t.cfg) : Stores s u cs :=
  Stores.of_mem (hc.trans h.1) (hm.trans h.2.1)

/-- The same stores from a state with the same memory and parameters. -/
theorem Stores.congr_left {s s' t : State} {cs : List (Addr × Byte)} (h : Stores s' t cs) (hm : s'.mem = s.mem)
    (hc : s'.cfg = s.cfg) : Stores s t cs :=
  Stores.of_mem (h.1.trans hc) (h.2.1.trans (State.busWrites_congr hm hc cs))

/-- One more bus write is one more store. -/
theorem Stores.busWrite {s t : State} {cs : List (Addr × Byte)} (h : Stores s t cs) (a : Addr) (v : Byte) :
    Stores s (t.busWrite a v) (cs ++ [(a, v)]) :=
  Stores.of_mem h.1 (by
    rw [State.busWrites_append, State.busWrite_mem, State.busWrite_mem, h.2.1, h.1, State.busWrites_cfg])

/-- `WriteOp` stores the operand's bytes, low byte first (R69). -/
theorem stores_writeOp (s : State) (ea : Ea) (w : Width) (v : Word) : Stores s (s.writeOp ea w v) (ea.bytes w v) := by
  have h0 := Stores.none (s := s) (t := s) rfl rfl
  rcases ea with ⟨addr, wrap⟩
  cases w <;> cases wrap
  · exact h0.busWrite _ _
  · exact h0.busWrite _ _
  · exact (h0.busWrite _ _).busWrite _ _
  · refine (((h0.busWrite addr _).busWrite _ _).congr ?_ rfl)
    simp [State.writeOp, State.memWriteB16, addrBank, addrOffset, State.busWrite, Ea.next]

/-! ### The stack -/

@[simp] theorem State.spAfterPushes_zero (s : State) : s.spAfterPushes 0 = s.sp := rfl

@[simp] theorem State.spAfterPulls_zero (s : State) : s.spAfterPulls 0 = s.sp := rfl

/-- SP after one push more. -/
theorem State.spAfterPushes_succ (s : State) (n : Nat) :
    s.spAfterPushes (n + 1) = stackWrap s.e (s.spAfterPushes n - 1) := by
  cases n with
  | zero => simp [State.spAfterPushes]
  | succ n =>
    simp only [State.spAfterPushes, Nat.add_eq_zero_iff, one_ne_zero, and_false, ↓reduceIte, stackWrap_sub]
    rw [BitVec.sub_sub, BitVec.ofNat_add (x := n + 1)]
    rfl

/-- SP after one pull more. -/
theorem State.spAfterPulls_succ (s : State) (n : Nat) :
    s.spAfterPulls (n + 1) = stackWrap s.e (s.spAfterPulls n + 1) := by
  cases n with
  | zero => simp [State.spAfterPulls]
  | succ n =>
    simp only [State.spAfterPulls, Nat.add_eq_zero_iff, one_ne_zero, and_false, ↓reduceIte, stackWrap_add]
    rw [BitVec.add_assoc, BitVec.ofNat_add (x := n + 1)]
    rfl

theorem State.pushes_append (s : State) (bs : List Byte) (v : Byte) :
    s.pushes (bs ++ [v]) = s.pushes bs ++ [(addr24 0x00 (s.spAfterPushes bs.length), v)] := by
  simp [State.pushes, List.zipIdx_append]

/-- `t` is `s` after pushing bytes, with SP and the stores that gives. -/
def Pushed (s t : State) (bs : List Byte) : Prop :=
  Stores s t (s.pushes bs) ∧ t.sp = s.spAfterPushes bs.length ∧ t.e = s.e ∧ t.cfg = s.cfg

theorem Pushed.nil (s : State) : Pushed s s [] := ⟨Stores.none rfl rfl, rfl, rfl, rfl⟩

/-- One `Push8` more (R71). -/
theorem Pushed.push8 {s t : State} {bs : List Byte} (h : Pushed s t bs) (v : Byte) :
    Pushed s (t.push8 v) (bs ++ [v]) := by
  obtain ⟨hs, hsp, he, hc⟩ := h
  refine ⟨?_, ?_, he, hc⟩
  · rw [State.pushes_append, ← hsp]
    exact (hs.busWrite _ _).congr rfl rfl
  · rw [List.length_append, List.length_singleton, State.spAfterPushes_succ, ← hsp, ← he]
    rfl

/-- `Push16` pushes the high byte first (R72). -/
theorem Pushed.push16 {s t : State} {bs : List Byte} (h : Pushed s t bs) (v : Word) :
    Pushed s (t.push16 v) (bs ++ [hi v, lo v]) := by
  simpa [State.push16] using (h.push8 (hi v)).push8 (lo v)

/-- A push of width w. -/
theorem Pushed.pushW {s t : State} {bs : List Byte} (h : Pushed s t bs) (w : Width) (v : Word) :
    Pushed s (t.pushW w v) (bs ++ pushOrder w v) := by
  cases w
  · exact h.push8 (lo v)
  · exact h.push16 v

/-- The frame of an entry (R405). -/
theorem pushed_pushFrame (s : State) (ev : TrapEvent) :
    Pushed s (s.pushFrame ev) (s.frame (pushedP ev s.e s.p)) := by
  unfold State.pushFrame State.frame
  cases he : s.e
  · simpa using ((((Pushed.nil s).push8 s.pb).push16 s.pc).push8 (pushedP ev false s.p))
  · simpa using (((Pushed.nil s).push16 s.pc).push8 (pushedP ev true s.p))

theorem State.pull8_value (s : State) : s.pull8.1 = s.pulled 1 := rfl

theorem State.pull16_value (s : State) : s.pull16.1 = word (s.pulled 1) (s.pulled 2) := by
  have h : s.spAfterPulls 2 = stackWrap s.e (stackWrap s.e (s.sp + 1) + 1) := by
    rw [State.spAfterPulls_succ, State.spAfterPulls_succ, State.spAfterPulls_zero]
  simp only [State.pulled, h]
  rfl

theorem State.pullW_value (s : State) (w : Width) : (s.pullW w).1 = s.pulledValue w := by
  cases w
  · apply word_ext <;> simp [State.pullW, State.pulledValue, State.pull8_value]
  · exact s.pull16_value

theorem State.pull8_sp_after (s : State) : s.pull8.2.sp = s.spAfterPulls 1 := rfl

theorem State.pull16_sp_after (s : State) : s.pull16.2.sp = s.spAfterPulls 2 := by
  rw [State.spAfterPulls_succ, State.spAfterPulls_succ, State.spAfterPulls_zero, State.pull16_sp]

theorem State.pullW_sp_after (s : State) (w : Width) : (s.pullW w).2.sp = s.spAfterPulls w.bytes := by
  cases w
  · exact s.pull8_sp_after
  · exact s.pull16_sp_after

/-- After `k` pulls of `n` pushes, SP is where `n - k` pushes put it. -/
theorem State.spAfterPulls_of_pushes {s t : State} (h : s.e = true → hi s.sp = 0x01) {n k : Nat} (hk : k ≤ n)
    (ht : t.sp = s.spAfterPushes n) (he : t.e = s.e) : t.spAfterPulls k = s.spAfterPushes (n - k) := by
  have hpage : ∀ m, s.e = true → hi (s.spAfterPushes m) = 0x01 := by
    intro m hm
    cases m
    · exact h hm
    · rw [State.spAfterPushes_succ, hm]; simp
  induction k with
  | zero => simpa using ht
  | succ k ih =>
    have hn : n - k = n - (k + 1) + 1 := by omega
    rw [State.spAfterPulls_succ, ih (by omega), he, hn, State.spAfterPushes_succ, stackWrap_add, BitVec.sub_add_cancel]
    exact stackWrap_eq_self (hpage _)

/-- A pushed byte reads back where the stack has room for all of them. -/
theorem Pushed.read {s t : State} {bs : List Byte} (h : Pushed s t bs) (hr : s.StackRoom bs.length) (j : Nat)
    (hj : j < bs.length) : t.busRead (addr24 0x00 (s.spAfterPushes j)) = bs[j] := by
  rw [h.1.2.2.2]
  suffices H : ∀ cs : List Byte, cs.length ≤ bs.length → ∀ hjc : j < cs.length,
      (s.busWrites (s.pushes cs)).busRead (addr24 0x00 (s.spAfterPushes j)) = cs[j] from H bs le_rfl hj
  intro cs
  induction cs using List.reverseRecOn with
  | nil => intro _ h; simp at h
  | append_singleton cs v ih =>
    intro hl hjc
    have hw := (hr.2 cs.length (by simpa using hl)).1
    rw [State.pushes_append, State.busWrites_append, State.busRead_busWrite_writable
      (by rw [State.writable_congr (s.busWrites_cfg _)]; exact hw), State.home_congr (s.busWrites_cfg _),
      State.home_congr (s.busWrites_cfg _)]
    simp only [List.length_append, List.length_singleton] at hl hjc
    by_cases e : j = cs.length
    · subst e
      rw [if_pos rfl]
      simp
    · rw [if_neg fun hc => e ((hr.2 j (by omega)).2 cs.length (by omega) hc), ih (by omega) (by omega)]
      simp [show j < cs.length by omega]

/-- The `k`-th pull after pushes reads the `k`-th last pushed byte. -/
theorem Pushed.pulled {s t : State} {bs : List Byte} (h : Pushed s t bs) (hr : s.StackRoom bs.length) (k : Nat)
    (hk : 1 ≤ k) (hk' : k ≤ bs.length) : t.pulled k = bs[bs.length - k]'(by omega) := by
  rw [State.pulled, State.spAfterPulls_of_pushes hr.1 hk' h.2.1 h.2.2.1, h.read hr _ (by omega)]

/-- As many pulls as pushes bring SP back. -/
theorem Pushed.sp_back {s t : State} {bs : List Byte} (h : Pushed s t bs) (hr : s.StackRoom bs.length) :
    t.spAfterPulls bs.length = s.sp := by
  rw [State.spAfterPulls_of_pushes hr.1 le_rfl h.2.1 h.2.2.1]
  simp

/-- A pull from a state whose stack pointer is that of `s` after `n` pulls (R71). -/
theorem State.pull8_at {s u : State} (n : Nat) (he : u.e = s.e) (hs : u.sp = s.spAfterPulls n) (hm : u.mem = s.mem)
    (hc : u.cfg = s.cfg) : u.pull8 = (s.pulled (n + 1), { u with sp := s.spAfterPulls (n + 1) }) := by
  have h : u.spAfterPulls 1 = s.spAfterPulls (n + 1) := by
    rw [State.spAfterPulls_succ, State.spAfterPulls_zero, hs, he, s.spAfterPulls_succ n]
  have e : u.pull8 = (u.pulled 1, { u with sp := u.spAfterPulls 1 }) := rfl
  rw [e, State.pulled, h, State.busRead_congr hm hc]
  rfl

/-- A pull of a word, likewise (R72). -/
theorem State.pull16_at {s u : State} (n : Nat) (he : u.e = s.e) (hs : u.sp = s.spAfterPulls n) (hm : u.mem = s.mem)
    (hc : u.cfg = s.cfg) :
    u.pull16 = (word (s.pulled (n + 1)) (s.pulled (n + 2)), { u with sp := s.spAfterPulls (n + 2) }) := by
  have h1 := State.pull8_at n he hs hm hc
  have h2 := State.pull8_at (s := s) (u := { u with sp := s.spAfterPulls (n + 1) }) (n + 1) he rfl hm hc
  unfold State.pull16
  simp only [h1, h2]

theorem State.pull8_eq (s : State) : s.pull8 = (s.pulled 1, { s with sp := s.spAfterPulls 1 }) := rfl

theorem State.pull16_eq (s : State) :
    s.pull16 = (word (s.pulled 1) (s.pulled 2), { s with sp := s.spAfterPulls 2 }) :=
  State.pull16_at 0 rfl rfl rfl rfl

theorem State.pullW_eq (s : State) (w : Width) :
    s.pullW w = (s.pulledValue w, { s with sp := s.spAfterPulls w.bytes }) := by
  cases w
  · exact Prod.ext (s.pullW_value .w8) rfl
  · exact s.pull16_eq

/-! ### Writing P and E -/

/-- `EnforceModeInvariants` establishes the mode invariants, whatever the state was (R39). -/
theorem State.modeInv_enforceModes (s : State) : s.enforceModes.ModeInv := by
  unfold State.ModeInv State.enforceModes
  cases he : s.e <;> simp only [Bool.false_eq_true, ↓reduceIte]
  · split
    · simp_all [State.flag]
    · simp_all
  · simp [State.flag, getLsbD_put]

/-- Forcing P.M and P.X is setting bits 5 and 4. -/
theorem put_m_x (p : Byte) : Flag.x.put true (Flag.m.put true p) = p ||| 0x30 := by
  apply flags_ext
  intro f
  rw [getLsbD_put, getLsbD_put]
  cases f <;> simp [Flag.bit]

/-- All of `EnforceModeInvariants` (R39), field by field. -/
theorem State.enforceModes_eq (s : State) : s.enforceModes = { s with
    p := if s.e then s.p ||| 0x30 else s.p
    sp := if s.e then word (lo s.sp) 0x01 else s.sp
    x := if s.enforceModes.flag .x then word (lo s.x) 0x00 else s.x
    y := if s.enforceModes.flag .x then word (lo s.y) 0x00 else s.y } := by
  have hx : s.enforceModes.flag .x = (if s.e then { s with p := Flag.x.put true (Flag.m.put true s.p), sp := word (lo s.sp) 0x01 } else s).flag .x := by
    simp only [State.flag, s.enforceModes_p]
    split <;> rfl
  rw [hx, ← put_m_x]
  unfold State.enforceModes
  simp only []
  by_cases he : s.e = true
  · simp only [he, ↓reduceIte]
    split <;> simp only []
  · simp only [he, Bool.false_eq_true, ↓reduceIte]
    by_cases hf : s.flag .x = true
    · simp only [hf, ↓reduceIte]
    · simp only [hf, Bool.false_eq_true, ↓reduceIte]
      have he' : s.e = false := by simpa using he
      rw [← he']

/-- All of RTI's pulls (R267): P through SetP, PC, and PB in native mode only. -/
theorem State.returnFromInterrupt_eq (s : State) :
    ∃ x8 : Bool, x8 = s.returnFromInterrupt.flag .x ∧ s.returnFromInterrupt = { s with
      p := if s.e then s.pulled 1 ||| 0x30 else s.pulled 1
      pc := word (s.pulled 2) (s.pulled 3)
      pb := if s.e then s.pb else s.pulled 4
      sp := s.spAfterPulls (if s.e then 3 else 4)
      x := if x8 then word (lo s.x) 0x00 else s.x
      y := if x8 then word (lo s.y) 0x00 else s.y } := by
  generalize hu : ({ s with sp := s.spAfterPulls 1 } : State).setP (s.pulled 1) = u
  have hu' : u = { s with
      sp := s.spAfterPulls 1
      p := if s.e then s.pulled 1 ||| 0x30 else s.pulled 1
      x := if u.flag .x then word (lo s.x) 0x00 else s.x
      y := if u.flag .x then word (lo s.y) 0x00 else s.y } := by
    rw [← hu]
    refine (State.enforceModes_eq _).trans ?_
    have hsp : (if s.e then word (lo (s.spAfterPulls 1)) 0x01 else s.spAfterPulls 1) = s.spAfterPulls 1 := by
      rw [State.spAfterPulls_succ]
      cases s.e <;> simp [stackWrap]
    simp only [hsp, State.setP]
    rfl
  generalize hb : u.flag .x = b at hu'
  have h16 := State.pull16_at (s := s) (u := u) 1 (by rw [hu']) (by rw [hu']) (by rw [hu']) (by rw [hu'])
  have h8 := State.pull8_at (s := s)
    (u := { u with sp := s.spAfterPulls 3, pc := word (s.pulled 2) (s.pulled 3) }) 3
    (by rw [hu']) rfl (by rw [hu']) (by rw [hu'])
  have hr : s.returnFromInterrupt =
      (let r := u.pull16
       let s2 := { r.2 with pc := r.1 }
       if s.e then s2 else { s2.pull8.2 with pb := s2.pull8.1 }) := by
    rw [← hu]
    unfold State.returnFromInterrupt
    simp only [State.pull8_eq]
  have hall : s.returnFromInterrupt = { s with
      p := if s.e then s.pulled 1 ||| 0x30 else s.pulled 1
      pc := word (s.pulled 2) (s.pulled 3)
      pb := if s.e then s.pb else s.pulled 4
      sp := s.spAfterPulls (if s.e then 3 else 4)
      x := if b then word (lo s.x) 0x00 else s.x
      y := if b then word (lo s.y) 0x00 else s.y } := by
    rw [hr]
    simp only [h16, h8]
    rw [hu']
    by_cases he : s.e = true
    · simp only [he, ↓reduceIte]
    · simp only [he, Bool.false_eq_true, ↓reduceIte]
  refine ⟨b, ?_, hall⟩
  rw [hall, ← hb, hu']
  rfl

/-- It changes nothing in a state that has them. -/
theorem State.enforceModes_eq_self {s : State} (h : s.ModeInv) : s.enforceModes = s := by
  obtain ⟨h1, h2⟩ := h
  have hw : ∀ v : Word, ∀ b : Byte, hi v = b → word (lo v) b = v := fun v b hb => by rw [← hb, word_lo_hi]
  have hput : ∀ f : Flag, s.flag f = true → f.put true s.p = s.p := fun f hf => by
    refine flags_ext fun g => ?_
    rw [getLsbD_put]
    split
    · rename_i hg; rw [hg]; exact hf.symm
    · rfl
  have e1 : (if s.e then { s with p := Flag.x.put true (Flag.m.put true s.p), sp := word (lo s.sp) 0x01 } else s) = s := by
    split
    · rename_i he
      obtain ⟨hm, hx, hs⟩ := h1 he
      rw [hput _ hm, hput _ hx, hw _ _ hs]
    · rfl
  have e2 : (if s.flag .x then { s with x := word (lo s.x) 0x00, y := word (lo s.y) 0x00 } else s) = s := by
    split
    · rename_i hx
      rw [hw _ _ (h2 hx).1, hw _ _ (h2 hx).2]
    · rfl
  unfold State.enforceModes
  simp only [e1]
  exact e2

theorem State.modeInv_setP (s : State) (v : Byte) : (s.setP v).ModeInv := State.modeInv_enforceModes _

/-- The mode invariants are about these fields only. -/
theorem State.ModeInv.congr {s t : State} (h : s.ModeInv) (he : t.e = s.e) (hm : t.flag .m = s.flag .m)
    (hx : t.flag .x = s.flag .x) (hsp : t.sp = s.sp) (hxr : t.x = s.x) (hyr : t.y = s.y) : t.ModeInv := by
  simpa [State.ModeInv, he, hm, hx, hsp, hxr, hyr] using h

/-! ### The forms -/

/-- All of a relative branch (R250): the target when the condition holds, and the two terms of its cycles. -/
theorem branchForm_eq (i : Instr) (c : Bool) (d : Byte) (s : State) :
    branchForm i c d s = .next ({ s with pc := if c then s.rel8 d else s.pc }.tick
      (cost i s { t := c, tx := c && s.rel8Cross d })) := by
  cases c <;> rfl

/-! ### The canonical form of memory -/

theorem State.busWrite_wf {s : State} (h : s.mem.wf) (a : Addr) (v : Byte) : (s.busWrite a v).mem.wf :=
  busWriteAt_wf h a v

theorem State.writeOp_wf {s : State} (h : s.mem.wf) (ea : Ea) (w : Width) (v : Word) : (s.writeOp ea w v).mem.wf := by
  unfold State.writeOp
  split
  · exact busWrite_wf h _ _
  · exact busWrite_wf (busWrite_wf h _ _) _ _
  · exact busWrite_wf (busWrite_wf h _ _) _ _

theorem State.push8_wf {s : State} (h : s.mem.wf) (v : Byte) : (s.push8 v).mem.wf := State.busWrite_wf h _ v

theorem State.push16_wf {s : State} (h : s.mem.wf) (v : Word) : (s.push16 v).mem.wf :=
  State.push8_wf (State.push8_wf h _) _

theorem State.pushW_wf {s : State} (h : s.mem.wf) (w : Width) (v : Word) : (s.pushW w v).mem.wf := by
  cases w
  · exact State.push8_wf h _
  · exact State.push16_wf h _

theorem State.pushFrame_wf {s : State} (h : s.mem.wf) (ev : TrapEvent) : (s.pushFrame ev).mem.wf := by
  unfold State.pushFrame
  split
  · exact State.push8_wf (State.push16_wf h _) _
  · exact State.push8_wf (State.push16_wf (State.push8_wf h _) _) _

/-! ### Traps, interrupts and the step -/

/-- All of `TrapEntry` (R405): the frame, I and D, the vector word read after the frame, PB, the halt latch, the cycles. -/
theorem State.trapEntry_eq (s : State) (ev : TrapEvent) :
    s.trapEntry ev =
      { s.pushFrame ev with
        p := Flag.d.put false (Flag.i.put true s.p)
        pb := 0x00
        pc := (s.pushFrame ev).memReadB16 0x00 (vector ev s.e)
        waiting := false
        cycles := s.cycles + BitVec.ofNat 64 (s.entryCost ev) } := by
  have hp : (s.pushFrame ev).p = s.p := by simp
  simp only [State.trapEntry, State.putFlag, hp, State.memReadB16]

theorem State.trapEntry_wf {s : State} (h : s.mem.wf) (ev : TrapEvent) : (s.trapEntry ev).mem.wf := by
  rw [State.trapEntry_eq]
  exact State.pushFrame_wf h ev

/-- The bytes at PB:PC always decode. -/
theorem State.fetch_decodes (s : State) (m8 x8 : Bool) :
    ∃ ir, decode m8 x8 s.fetchBytes = .ok ir ∧ ir.2.length ≤ 3 :=
  decode_four m8 x8 _ _ _ _

/-! ### The step (R410) -/

theorem State.irqWake_eq (s : State) : s.irqWake = { s with waiting := s.waiting && !s.irqPending } := by
  unfold State.irqWake
  split
  · rename_i h
    rw [h, Bool.not_true, Bool.and_false]
  · rename_i h
    have h' : s.irqPending = false := by simpa using h
    rw [h', Bool.not_false, Bool.and_true, ← h']

@[simp] theorem State.flag_irqWake (s : State) (f : Flag) : s.irqWake.flag f = s.flag f := by
  rw [State.irqWake_eq]; rfl

@[simp] theorem State.irqPending_irqWake (s : State) : s.irqWake.irqPending = s.irqPending := by
  rw [State.irqWake_eq]

theorem step_stopped {s : State} (h : s.stopped = true) : step s = .next s := by
  simp [step, State.stepProcedure, h]

theorem step_nmi {s : State} (hs : s.stopped = false) (h : s.nmiPending = true) :
    step s = .next ({ s with nmiPending := false }.trapEntry .nmi) := by
  simp [step, State.stepProcedure, hs, h]

theorem step_irq {s : State} (hs : s.stopped = false) (hn : s.nmiPending = false) (h : s.irqPending = true)
    (hi : s.flag .i = false) : step s = .next ({ s.irqWake with irqPending := false }.trapEntry .irq) := by
  simp [step, State.stepProcedure, hs, hn, h, hi]

theorem step_waiting {s : State} (hn : s.nmiPending = false) (h : s.irqPending = false)
    (hw : s.waiting = true) : step s = .next s := by
  unfold step State.stepProcedure State.irqWake
  simp [hn, h, hw]

theorem step_running {s : State} (h : s.Running) : step s = s.irqWake.runInstruction := by
  obtain ⟨hs, hn, hi, hw⟩ := h
  have hwait : s.irqWake.waiting = false := by
    rw [State.irqWake_eq]
    cases h1 : s.waiting
    · simp
    · simp [hw h1]
  have hirq : (s.irqWake.irqPending && !s.irqWake.flag .i) = false := by
    cases h1 : s.irqPending <;> simp_all
  simp only [step, State.stepProcedure, hs, hn, hwait, hirq, Bool.false_eq_true, ↓reduceIte]

/-- Every state is stopped, waiting, taking an interrupt, or running an instruction. -/
theorem State.step_state (s : State) :
    s.stopped = true ∨ (s.stopped = false ∧ s.nmiPending = true) ∨
    (s.stopped = false ∧ s.nmiPending = false ∧ s.irqPending = true ∧ s.flag .i = false) ∨
    (s.nmiPending = false ∧ s.irqPending = false ∧ s.waiting = true) ∨ s.Running := by
  unfold State.Running
  cases s.stopped <;> cases s.nmiPending <;> cases s.irqPending <;> cases s.flag .i <;> cases s.waiting <;> simp

/-- An instruction's step: the unknown-opcode path, or the decoded instruction (R104, R107). -/
theorem State.runInstruction_cases (s : State) :
    (s.fetchOpcode ∈ s.cfg.undefinedOpcodes ∧
        s.runInstruction = .next (s.unknownOpcode s.fetchOpcode).enforceModes) ∨
      (s.fetchOpcode ∉ s.cfg.undefinedOpcodes ∧ ∃ ir, decode (s.flag .m) (s.flag .x) s.fetchBytes = .ok ir ∧
        s.runInstruction = s.runDecoded ir.1 (4 - ir.2.length)) := by
  unfold State.runInstruction
  by_cases hu : s.fetchOpcode ∈ s.cfg.undefinedOpcodes
  · simp [hu]
  · obtain ⟨ir, hir, _⟩ := s.fetch_decodes (s.flag .m) (s.flag .x)
    exact .inr ⟨hu, ir, hir, by rw [if_neg hu, hir]; rfl⟩

end Sys2Proof.Machine
end

