-- ==== Sys2Proof/Tests/Slice0.lean ====
section
/-! SUPPORT. The model's own tests: ill-formed terms, words written out from the spec's encodings, vectors of
spec/95_test_vectors.md of one step each, and a state and operands that meet the hypotheses of each obligation that has
any. Every expected value comes from spec/. -/

namespace Sys2Proof.Machine

/-! ### Small states and one step -/

/-- The default start state of 95_test_vectors.md: FlatTestBus, the state after reset, PC = 0x0200. -/
def start : State := { State.powerOn { defaultConfig with bus := flatTestBus } with pc := 0x0200 }

/-- Place bytes from an address on. -/
def loadBytes (s : State) (a : Addr) : List Byte → State
  | [] => s
  | b :: bs => loadBytes (s.busPoke a b) (a + 1) bs

/-- Place several blocks of bytes. -/
def load (blocks : List (Addr × List Byte)) (s : State) : State :=
  blocks.foldl (fun t b => loadBytes t b.1 b.2) s

/-- One step answers a next state that passes the check. -/
def steps (s : State) (check : State → Bool) : Bool :=
  match step s with
  | .next t => check t
  | .fault _ => false
  | .refused _ => false

/-- The bytes decode to the instruction, with nothing left over. -/
def reads (m8 x8 : Bool) (bytes : List Byte) (i : Instr) : Prop := decode m8 x8 bytes = .ok (i, [])

/-! ### Well-formedness -/

/-- An accumulator immediate that does not fit in 8 bits is ill formed at width 8, and only there. -/
theorem test_immM_ill_formed :
    (Instr.ldaImm 0x0100).wf true true = false ∧ (Instr.ldaImm 0x00FF).wf true true = true ∧
    (Instr.ldaImm 0x0100).wf false true = true := by decide

/-- An index immediate that does not fit in 8 bits is ill formed at width 8, and only there. -/
theorem test_immX_ill_formed :
    (Instr.ldxImm 0x0100).wf true true = false ∧ (Instr.ldxImm 0x00FF).wf true true = true ∧
    (Instr.ldxImm 0x0100).wf true false = true := by decide

/-- An ill-formed term does not survive its encoding: the high byte is dropped, and the decoder gives another one. -/
theorem test_ill_formed_does_not_read_back : reads true true (encode true true (.ldaImm 0x0134)) (.ldaImm 0x0034) := rfl

/-! ### Decoding: every constructor, from a word of the spec's encoding -/

/-- Words bit by bit (30_encoding.md section 1): the opcode, then the operand low byte first. -/
theorem test_decode_bits :
    reads true true [0b10101001, 0b11100001] (.ldaImm 0b11100001) ∧
    reads true true [0b10001101, 0b11100001, 0b01011101] (.staAbs 0b0101110111100001) ∧
    reads true true [0b01110001, 0b11100001] (.adcDpIndY 0b11100001) ∧
    reads true true [0b00001010] .aslAcc ∧
    reads true true [0b01011100, 0b11100001, 0b01011101, 0b01111100] (.jmlLong 0b011111000101110111100001) ∧
    reads true true [0b11010100, 0b11100001] (.pei 0b11100001) ∧
    reads true true [0b11000010, 0b00110000] (.rep 0b00110000) ∧
    reads true true [0b01010100, 0b11100001, 0b01011101] (.mvn 0b11100001 0b01011101) := by
  refine ⟨?_, ?_, ?_, ?_, ?_, ?_, ?_, ?_⟩ <;> rfl

/-- Opcode bytes 00 to 0F (30_encoding.md R105). -/
theorem test_decode_row0 :
    reads true true [0x00, 0xE1] (.brk 0xE1) ∧ reads true true [0x01, 0xE1] (.oraDpXInd 0xE1) ∧
    reads true true [0x02, 0xE1] (.cop 0xE1) ∧ reads true true [0x03, 0xE1] (.oraSr 0xE1) ∧
    reads true true [0x04, 0xE1] (.tsbDp 0xE1) ∧ reads true true [0x05, 0xE1] (.oraDp 0xE1) ∧
    reads true true [0x06, 0xE1] (.aslDp 0xE1) ∧ reads true true [0x07, 0xE1] (.oraDpIndLong 0xE1) ∧
    reads true true [0x08] (.php) ∧ reads true true [0x09, 0xE1] (.oraImm 0x00E1) ∧
    reads true true [0x0A] (.aslAcc) ∧ reads true true [0x0B] (.phd) ∧
    reads true true [0x0C, 0xE1, 0x5D] (.tsbAbs 0x5DE1) ∧ reads true true [0x0D, 0xE1, 0x5D] (.oraAbs 0x5DE1) ∧
    reads true true [0x0E, 0xE1, 0x5D] (.aslAbs 0x5DE1) ∧ reads true true [0x0F, 0xE1, 0x5D, 0x7C] (.oraLong 0x7C5DE1) := by
  refine ⟨?_, ?_, ?_, ?_, ?_, ?_, ?_, ?_, ?_, ?_, ?_, ?_, ?_, ?_, ?_, ?_⟩ <;> rfl

/-- Opcode bytes 10 to 1F (30_encoding.md R105). -/
theorem test_decode_row1 :
    reads true true [0x10, 0xE1] (.bpl 0xE1) ∧ reads true true [0x11, 0xE1] (.oraDpIndY 0xE1) ∧
    reads true true [0x12, 0xE1] (.oraDpInd 0xE1) ∧ reads true true [0x13, 0xE1] (.oraSrIndY 0xE1) ∧
    reads true true [0x14, 0xE1] (.trbDp 0xE1) ∧ reads true true [0x15, 0xE1] (.oraDpX 0xE1) ∧
    reads true true [0x16, 0xE1] (.aslDpX 0xE1) ∧ reads true true [0x17, 0xE1] (.oraDpIndLongY 0xE1) ∧
    reads true true [0x18] (.clc) ∧ reads true true [0x19, 0xE1, 0x5D] (.oraAbsY 0x5DE1) ∧
    reads true true [0x1A] (.incAcc) ∧ reads true true [0x1B] (.tcs) ∧
    reads true true [0x1C, 0xE1, 0x5D] (.trbAbs 0x5DE1) ∧ reads true true [0x1D, 0xE1, 0x5D] (.oraAbsX 0x5DE1) ∧
    reads true true [0x1E, 0xE1, 0x5D] (.aslAbsX 0x5DE1) ∧ reads true true [0x1F, 0xE1, 0x5D, 0x7C] (.oraLongX 0x7C5DE1) := by
  refine ⟨?_, ?_, ?_, ?_, ?_, ?_, ?_, ?_, ?_, ?_, ?_, ?_, ?_, ?_, ?_, ?_⟩ <;> rfl

/-- Opcode bytes 20 to 2F (30_encoding.md R105). -/
theorem test_decode_row2 :
    reads true true [0x20, 0xE1, 0x5D] (.jsrAbs 0x5DE1) ∧ reads true true [0x21, 0xE1] (.andDpXInd 0xE1) ∧
    reads true true [0x22, 0xE1, 0x5D, 0x7C] (.jsl 0x7C5DE1) ∧ reads true true [0x23, 0xE1] (.andSr 0xE1) ∧
    reads true true [0x24, 0xE1] (.bitDp 0xE1) ∧ reads true true [0x25, 0xE1] (.andDp 0xE1) ∧
    reads true true [0x26, 0xE1] (.rolDp 0xE1) ∧ reads true true [0x27, 0xE1] (.andDpIndLong 0xE1) ∧
    reads true true [0x28] (.plp) ∧ reads true true [0x29, 0xE1] (.andImm 0x00E1) ∧
    reads true true [0x2A] (.rolAcc) ∧ reads true true [0x2B] (.pld) ∧
    reads true true [0x2C, 0xE1, 0x5D] (.bitAbs 0x5DE1) ∧ reads true true [0x2D, 0xE1, 0x5D] (.andAbs 0x5DE1) ∧
    reads true true [0x2E, 0xE1, 0x5D] (.rolAbs 0x5DE1) ∧ reads true true [0x2F, 0xE1, 0x5D, 0x7C] (.andLong 0x7C5DE1) := by
  refine ⟨?_, ?_, ?_, ?_, ?_, ?_, ?_, ?_, ?_, ?_, ?_, ?_, ?_, ?_, ?_, ?_⟩ <;> rfl

/-- Opcode bytes 30 to 3F (30_encoding.md R105). -/
theorem test_decode_row3 :
    reads true true [0x30, 0xE1] (.bmi 0xE1) ∧ reads true true [0x31, 0xE1] (.andDpIndY 0xE1) ∧
    reads true true [0x32, 0xE1] (.andDpInd 0xE1) ∧ reads true true [0x33, 0xE1] (.andSrIndY 0xE1) ∧
    reads true true [0x34, 0xE1] (.bitDpX 0xE1) ∧ reads true true [0x35, 0xE1] (.andDpX 0xE1) ∧
    reads true true [0x36, 0xE1] (.rolDpX 0xE1) ∧ reads true true [0x37, 0xE1] (.andDpIndLongY 0xE1) ∧
    reads true true [0x38] (.sec) ∧ reads true true [0x39, 0xE1, 0x5D] (.andAbsY 0x5DE1) ∧
    reads true true [0x3A] (.decAcc) ∧ reads true true [0x3B] (.tsc) ∧
    reads true true [0x3C, 0xE1, 0x5D] (.bitAbsX 0x5DE1) ∧ reads true true [0x3D, 0xE1, 0x5D] (.andAbsX 0x5DE1) ∧
    reads true true [0x3E, 0xE1, 0x5D] (.rolAbsX 0x5DE1) ∧ reads true true [0x3F, 0xE1, 0x5D, 0x7C] (.andLongX 0x7C5DE1) := by
  refine ⟨?_, ?_, ?_, ?_, ?_, ?_, ?_, ?_, ?_, ?_, ?_, ?_, ?_, ?_, ?_, ?_⟩ <;> rfl

/-- Opcode bytes 40 to 4F (30_encoding.md R105). -/
theorem test_decode_row4 :
    reads true true [0x40] (.rti) ∧ reads true true [0x41, 0xE1] (.eorDpXInd 0xE1) ∧
    reads true true [0x42, 0xE1] (.wdm 0xE1) ∧ reads true true [0x43, 0xE1] (.eorSr 0xE1) ∧
    reads true true [0x44, 0xE1, 0x5D] (.mvp 0xE1 0x5D) ∧ reads true true [0x45, 0xE1] (.eorDp 0xE1) ∧
    reads true true [0x46, 0xE1] (.lsrDp 0xE1) ∧ reads true true [0x47, 0xE1] (.eorDpIndLong 0xE1) ∧
    reads true true [0x48] (.pha) ∧ reads true true [0x49, 0xE1] (.eorImm 0x00E1) ∧
    reads true true [0x4A] (.lsrAcc) ∧ reads true true [0x4B] (.phk) ∧
    reads true true [0x4C, 0xE1, 0x5D] (.jmpAbs 0x5DE1) ∧ reads true true [0x4D, 0xE1, 0x5D] (.eorAbs 0x5DE1) ∧
    reads true true [0x4E, 0xE1, 0x5D] (.lsrAbs 0x5DE1) ∧ reads true true [0x4F, 0xE1, 0x5D, 0x7C] (.eorLong 0x7C5DE1) := by
  refine ⟨?_, ?_, ?_, ?_, ?_, ?_, ?_, ?_, ?_, ?_, ?_, ?_, ?_, ?_, ?_, ?_⟩ <;> rfl

/-- Opcode bytes 50 to 5F (30_encoding.md R105). -/
theorem test_decode_row5 :
    reads true true [0x50, 0xE1] (.bvc 0xE1) ∧ reads true true [0x51, 0xE1] (.eorDpIndY 0xE1) ∧
    reads true true [0x52, 0xE1] (.eorDpInd 0xE1) ∧ reads true true [0x53, 0xE1] (.eorSrIndY 0xE1) ∧
    reads true true [0x54, 0xE1, 0x5D] (.mvn 0xE1 0x5D) ∧ reads true true [0x55, 0xE1] (.eorDpX 0xE1) ∧
    reads true true [0x56, 0xE1] (.lsrDpX 0xE1) ∧ reads true true [0x57, 0xE1] (.eorDpIndLongY 0xE1) ∧
    reads true true [0x58] (.cli) ∧ reads true true [0x59, 0xE1, 0x5D] (.eorAbsY 0x5DE1) ∧
    reads true true [0x5A] (.phy) ∧ reads true true [0x5B] (.tcd) ∧
    reads true true [0x5C, 0xE1, 0x5D, 0x7C] (.jmlLong 0x7C5DE1) ∧ reads true true [0x5D, 0xE1, 0x5D] (.eorAbsX 0x5DE1) ∧
    reads true true [0x5E, 0xE1, 0x5D] (.lsrAbsX 0x5DE1) ∧ reads true true [0x5F, 0xE1, 0x5D, 0x7C] (.eorLongX 0x7C5DE1) := by
  refine ⟨?_, ?_, ?_, ?_, ?_, ?_, ?_, ?_, ?_, ?_, ?_, ?_, ?_, ?_, ?_, ?_⟩ <;> rfl

/-- Opcode bytes 60 to 6F (30_encoding.md R105). -/
theorem test_decode_row6 :
    reads true true [0x60] (.rts) ∧ reads true true [0x61, 0xE1] (.adcDpXInd 0xE1) ∧
    reads true true [0x62, 0xE1, 0x5D] (.per 0x5DE1) ∧ reads true true [0x63, 0xE1] (.adcSr 0xE1) ∧
    reads true true [0x64, 0xE1] (.stzDp 0xE1) ∧ reads true true [0x65, 0xE1] (.adcDp 0xE1) ∧
    reads true true [0x66, 0xE1] (.rorDp 0xE1) ∧ reads true true [0x67, 0xE1] (.adcDpIndLong 0xE1) ∧
    reads true true [0x68] (.pla) ∧ reads true true [0x69, 0xE1] (.adcImm 0x00E1) ∧
    reads true true [0x6A] (.rorAcc) ∧ reads true true [0x6B] (.rtl) ∧
    reads true true [0x6C, 0xE1, 0x5D] (.jmpAbsInd 0x5DE1) ∧ reads true true [0x6D, 0xE1, 0x5D] (.adcAbs 0x5DE1) ∧
    reads true true [0x6E, 0xE1, 0x5D] (.rorAbs 0x5DE1) ∧ reads true true [0x6F, 0xE1, 0x5D, 0x7C] (.adcLong 0x7C5DE1) := by
  refine ⟨?_, ?_, ?_, ?_, ?_, ?_, ?_, ?_, ?_, ?_, ?_, ?_, ?_, ?_, ?_, ?_⟩ <;> rfl

/-- Opcode bytes 70 to 7F (30_encoding.md R105). -/
theorem test_decode_row7 :
    reads true true [0x70, 0xE1] (.bvs 0xE1) ∧ reads true true [0x71, 0xE1] (.adcDpIndY 0xE1) ∧
    reads true true [0x72, 0xE1] (.adcDpInd 0xE1) ∧ reads true true [0x73, 0xE1] (.adcSrIndY 0xE1) ∧
    reads true true [0x74, 0xE1] (.stzDpX 0xE1) ∧ reads true true [0x75, 0xE1] (.adcDpX 0xE1) ∧
    reads true true [0x76, 0xE1] (.rorDpX 0xE1) ∧ reads true true [0x77, 0xE1] (.adcDpIndLongY 0xE1) ∧
    reads true true [0x78] (.sei) ∧ reads true true [0x79, 0xE1, 0x5D] (.adcAbsY 0x5DE1) ∧
    reads true true [0x7A] (.ply) ∧ reads true true [0x7B] (.tdc) ∧
    reads true true [0x7C, 0xE1, 0x5D] (.jmpAbsXInd 0x5DE1) ∧ reads true true [0x7D, 0xE1, 0x5D] (.adcAbsX 0x5DE1) ∧
    reads true true [0x7E, 0xE1, 0x5D] (.rorAbsX 0x5DE1) ∧ reads true true [0x7F, 0xE1, 0x5D, 0x7C] (.adcLongX 0x7C5DE1) := by
  refine ⟨?_, ?_, ?_, ?_, ?_, ?_, ?_, ?_, ?_, ?_, ?_, ?_, ?_, ?_, ?_, ?_⟩ <;> rfl

/-- Opcode bytes 80 to 8F (30_encoding.md R105). -/
theorem test_decode_row8 :
    reads true true [0x80, 0xE1] (.bra 0xE1) ∧ reads true true [0x81, 0xE1] (.staDpXInd 0xE1) ∧
    reads true true [0x82, 0xE1, 0x5D] (.brl 0x5DE1) ∧ reads true true [0x83, 0xE1] (.staSr 0xE1) ∧
    reads true true [0x84, 0xE1] (.styDp 0xE1) ∧ reads true true [0x85, 0xE1] (.staDp 0xE1) ∧
    reads true true [0x86, 0xE1] (.stxDp 0xE1) ∧ reads true true [0x87, 0xE1] (.staDpIndLong 0xE1) ∧
    reads true true [0x88] (.dey) ∧ reads true true [0x89, 0xE1] (.bitImm 0x00E1) ∧
    reads true true [0x8A] (.txa) ∧ reads true true [0x8B] (.phb) ∧
    reads true true [0x8C, 0xE1, 0x5D] (.styAbs 0x5DE1) ∧ reads true true [0x8D, 0xE1, 0x5D] (.staAbs 0x5DE1) ∧
    reads true true [0x8E, 0xE1, 0x5D] (.stxAbs 0x5DE1) ∧ reads true true [0x8F, 0xE1, 0x5D, 0x7C] (.staLong 0x7C5DE1) := by
  refine ⟨?_, ?_, ?_, ?_, ?_, ?_, ?_, ?_, ?_, ?_, ?_, ?_, ?_, ?_, ?_, ?_⟩ <;> rfl

/-- Opcode bytes 90 to 9F (30_encoding.md R105). -/
theorem test_decode_row9 :
    reads true true [0x90, 0xE1] (.bcc 0xE1) ∧ reads true true [0x91, 0xE1] (.staDpIndY 0xE1) ∧
    reads true true [0x92, 0xE1] (.staDpInd 0xE1) ∧ reads true true [0x93, 0xE1] (.staSrIndY 0xE1) ∧
    reads true true [0x94, 0xE1] (.styDpX 0xE1) ∧ reads true true [0x95, 0xE1] (.staDpX 0xE1) ∧
    reads true true [0x96, 0xE1] (.stxDpY 0xE1) ∧ reads true true [0x97, 0xE1] (.staDpIndLongY 0xE1) ∧
    reads true true [0x98] (.tya) ∧ reads true true [0x99, 0xE1, 0x5D] (.staAbsY 0x5DE1) ∧
    reads true true [0x9A] (.txs) ∧ reads true true [0x9B] (.txy) ∧
    reads true true [0x9C, 0xE1, 0x5D] (.stzAbs 0x5DE1) ∧ reads true true [0x9D, 0xE1, 0x5D] (.staAbsX 0x5DE1) ∧
    reads true true [0x9E, 0xE1, 0x5D] (.stzAbsX 0x5DE1) ∧ reads true true [0x9F, 0xE1, 0x5D, 0x7C] (.staLongX 0x7C5DE1) := by
  refine ⟨?_, ?_, ?_, ?_, ?_, ?_, ?_, ?_, ?_, ?_, ?_, ?_, ?_, ?_, ?_, ?_⟩ <;> rfl

/-- Opcode bytes A0 to AF (30_encoding.md R105). -/
theorem test_decode_rowA :
    reads true true [0xA0, 0xE1] (.ldyImm 0x00E1) ∧ reads true true [0xA1, 0xE1] (.ldaDpXInd 0xE1) ∧
    reads true true [0xA2, 0xE1] (.ldxImm 0x00E1) ∧ reads true true [0xA3, 0xE1] (.ldaSr 0xE1) ∧
    reads true true [0xA4, 0xE1] (.ldyDp 0xE1) ∧ reads true true [0xA5, 0xE1] (.ldaDp 0xE1) ∧
    reads true true [0xA6, 0xE1] (.ldxDp 0xE1) ∧ reads true true [0xA7, 0xE1] (.ldaDpIndLong 0xE1) ∧
    reads true true [0xA8] (.tay) ∧ reads true true [0xA9, 0xE1] (.ldaImm 0x00E1) ∧
    reads true true [0xAA] (.tax) ∧ reads true true [0xAB] (.plb) ∧
    reads true true [0xAC, 0xE1, 0x5D] (.ldyAbs 0x5DE1) ∧ reads true true [0xAD, 0xE1, 0x5D] (.ldaAbs 0x5DE1) ∧
    reads true true [0xAE, 0xE1, 0x5D] (.ldxAbs 0x5DE1) ∧ reads true true [0xAF, 0xE1, 0x5D, 0x7C] (.ldaLong 0x7C5DE1) := by
  refine ⟨?_, ?_, ?_, ?_, ?_, ?_, ?_, ?_, ?_, ?_, ?_, ?_, ?_, ?_, ?_, ?_⟩ <;> rfl

/-- Opcode bytes B0 to BF (30_encoding.md R105). -/
theorem test_decode_rowB :
    reads true true [0xB0, 0xE1] (.bcs 0xE1) ∧ reads true true [0xB1, 0xE1] (.ldaDpIndY 0xE1) ∧
    reads true true [0xB2, 0xE1] (.ldaDpInd 0xE1) ∧ reads true true [0xB3, 0xE1] (.ldaSrIndY 0xE1) ∧
    reads true true [0xB4, 0xE1] (.ldyDpX 0xE1) ∧ reads true true [0xB5, 0xE1] (.ldaDpX 0xE1) ∧
    reads true true [0xB6, 0xE1] (.ldxDpY 0xE1) ∧ reads true true [0xB7, 0xE1] (.ldaDpIndLongY 0xE1) ∧
    reads true true [0xB8] (.clv) ∧ reads true true [0xB9, 0xE1, 0x5D] (.ldaAbsY 0x5DE1) ∧
    reads true true [0xBA] (.tsx) ∧ reads true true [0xBB] (.tyx) ∧
    reads true true [0xBC, 0xE1, 0x5D] (.ldyAbsX 0x5DE1) ∧ reads true true [0xBD, 0xE1, 0x5D] (.ldaAbsX 0x5DE1) ∧
    reads true true [0xBE, 0xE1, 0x5D] (.ldxAbsY 0x5DE1) ∧ reads true true [0xBF, 0xE1, 0x5D, 0x7C] (.ldaLongX 0x7C5DE1) := by
  refine ⟨?_, ?_, ?_, ?_, ?_, ?_, ?_, ?_, ?_, ?_, ?_, ?_, ?_, ?_, ?_, ?_⟩ <;> rfl

/-- Opcode bytes C0 to CF (30_encoding.md R105). -/
theorem test_decode_rowC :
    reads true true [0xC0, 0xE1] (.cpyImm 0x00E1) ∧ reads true true [0xC1, 0xE1] (.cmpDpXInd 0xE1) ∧
    reads true true [0xC2, 0xE1] (.rep 0xE1) ∧ reads true true [0xC3, 0xE1] (.cmpSr 0xE1) ∧
    reads true true [0xC4, 0xE1] (.cpyDp 0xE1) ∧ reads true true [0xC5, 0xE1] (.cmpDp 0xE1) ∧
    reads true true [0xC6, 0xE1] (.decDp 0xE1) ∧ reads true true [0xC7, 0xE1] (.cmpDpIndLong 0xE1) ∧
    reads true true [0xC8] (.iny) ∧ reads true true [0xC9, 0xE1] (.cmpImm 0x00E1) ∧
    reads true true [0xCA] (.dex) ∧ reads true true [0xCB] (.wai) ∧
    reads true true [0xCC, 0xE1, 0x5D] (.cpyAbs 0x5DE1) ∧ reads true true [0xCD, 0xE1, 0x5D] (.cmpAbs 0x5DE1) ∧
    reads true true [0xCE, 0xE1, 0x5D] (.decAbs 0x5DE1) ∧ reads true true [0xCF, 0xE1, 0x5D, 0x7C] (.cmpLong 0x7C5DE1) := by
  refine ⟨?_, ?_, ?_, ?_, ?_, ?_, ?_, ?_, ?_, ?_, ?_, ?_, ?_, ?_, ?_, ?_⟩ <;> rfl

/-- Opcode bytes D0 to DF (30_encoding.md R105). -/
theorem test_decode_rowD :
    reads true true [0xD0, 0xE1] (.bne 0xE1) ∧ reads true true [0xD1, 0xE1] (.cmpDpIndY 0xE1) ∧
    reads true true [0xD2, 0xE1] (.cmpDpInd 0xE1) ∧ reads true true [0xD3, 0xE1] (.cmpSrIndY 0xE1) ∧
    reads true true [0xD4, 0xE1] (.pei 0xE1) ∧ reads true true [0xD5, 0xE1] (.cmpDpX 0xE1) ∧
    reads true true [0xD6, 0xE1] (.decDpX 0xE1) ∧ reads true true [0xD7, 0xE1] (.cmpDpIndLongY 0xE1) ∧
    reads true true [0xD8] (.cld) ∧ reads true true [0xD9, 0xE1, 0x5D] (.cmpAbsY 0x5DE1) ∧
    reads true true [0xDA] (.phx) ∧ reads true true [0xDB] (.stp) ∧
    reads true true [0xDC, 0xE1, 0x5D] (.jmlAbsIndLong 0x5DE1) ∧ reads true true [0xDD, 0xE1, 0x5D] (.cmpAbsX 0x5DE1) ∧
    reads true true [0xDE, 0xE1, 0x5D] (.decAbsX 0x5DE1) ∧ reads true true [0xDF, 0xE1, 0x5D, 0x7C] (.cmpLongX 0x7C5DE1) := by
  refine ⟨?_, ?_, ?_, ?_, ?_, ?_, ?_, ?_, ?_, ?_, ?_, ?_, ?_, ?_, ?_, ?_⟩ <;> rfl

/-- Opcode bytes E0 to EF (30_encoding.md R105). -/
theorem test_decode_rowE :
    reads true true [0xE0, 0xE1] (.cpxImm 0x00E1) ∧ reads true true [0xE1, 0xE1] (.sbcDpXInd 0xE1) ∧
    reads true true [0xE2, 0xE1] (.sep 0xE1) ∧ reads true true [0xE3, 0xE1] (.sbcSr 0xE1) ∧
    reads true true [0xE4, 0xE1] (.cpxDp 0xE1) ∧ reads true true [0xE5, 0xE1] (.sbcDp 0xE1) ∧
    reads true true [0xE6, 0xE1] (.incDp 0xE1) ∧ reads true true [0xE7, 0xE1] (.sbcDpIndLong 0xE1) ∧
    reads true true [0xE8] (.inx) ∧ reads true true [0xE9, 0xE1] (.sbcImm 0x00E1) ∧
    reads true true [0xEA] (.nop) ∧ reads true true [0xEB] (.xba) ∧
    reads true true [0xEC, 0xE1, 0x5D] (.cpxAbs 0x5DE1) ∧ reads true true [0xED, 0xE1, 0x5D] (.sbcAbs 0x5DE1) ∧
    reads true true [0xEE, 0xE1, 0x5D] (.incAbs 0x5DE1) ∧ reads true true [0xEF, 0xE1, 0x5D, 0x7C] (.sbcLong 0x7C5DE1) := by
  refine ⟨?_, ?_, ?_, ?_, ?_, ?_, ?_, ?_, ?_, ?_, ?_, ?_, ?_, ?_, ?_, ?_⟩ <;> rfl

/-- Opcode bytes F0 to FF (30_encoding.md R105). -/
theorem test_decode_rowF :
    reads true true [0xF0, 0xE1] (.beq 0xE1) ∧ reads true true [0xF1, 0xE1] (.sbcDpIndY 0xE1) ∧
    reads true true [0xF2, 0xE1] (.sbcDpInd 0xE1) ∧ reads true true [0xF3, 0xE1] (.sbcSrIndY 0xE1) ∧
    reads true true [0xF4, 0xE1, 0x5D] (.pea 0x5DE1) ∧ reads true true [0xF5, 0xE1] (.sbcDpX 0xE1) ∧
    reads true true [0xF6, 0xE1] (.incDpX 0xE1) ∧ reads true true [0xF7, 0xE1] (.sbcDpIndLongY 0xE1) ∧
    reads true true [0xF8] (.sed) ∧ reads true true [0xF9, 0xE1, 0x5D] (.sbcAbsY 0x5DE1) ∧
    reads true true [0xFA] (.plx) ∧ reads true true [0xFB] (.xce) ∧
    reads true true [0xFC, 0xE1, 0x5D] (.jsrAbsXInd 0x5DE1) ∧ reads true true [0xFD, 0xE1, 0x5D] (.sbcAbsX 0x5DE1) ∧
    reads true true [0xFE, 0xE1, 0x5D] (.incAbsX 0x5DE1) ∧ reads true true [0xFF, 0xE1, 0x5D, 0x7C] (.sbcLongX 0x7C5DE1) := by
  refine ⟨?_, ?_, ?_, ?_, ?_, ?_, ?_, ?_, ?_, ?_, ?_, ?_, ?_, ?_, ?_, ?_⟩ <;> rfl

/-- The twelve width-dependent immediates at width 16, low byte first (R103). -/
theorem test_decode_wide_immediates :
    reads false true [0x09, 0xE1, 0x5D] (.oraImm 0x5DE1) ∧ reads false true [0x29, 0xE1, 0x5D] (.andImm 0x5DE1) ∧
    reads false true [0x49, 0xE1, 0x5D] (.eorImm 0x5DE1) ∧ reads false true [0x69, 0xE1, 0x5D] (.adcImm 0x5DE1) ∧
    reads false true [0x89, 0xE1, 0x5D] (.bitImm 0x5DE1) ∧ reads true false [0xA0, 0xE1, 0x5D] (.ldyImm 0x5DE1) ∧
    reads true false [0xA2, 0xE1, 0x5D] (.ldxImm 0x5DE1) ∧ reads false true [0xA9, 0xE1, 0x5D] (.ldaImm 0x5DE1) ∧
    reads true false [0xC0, 0xE1, 0x5D] (.cpyImm 0x5DE1) ∧ reads false true [0xC9, 0xE1, 0x5D] (.cmpImm 0x5DE1) ∧
    reads true false [0xE0, 0xE1, 0x5D] (.cpxImm 0x5DE1) ∧ reads false true [0xE9, 0xE1, 0x5D] (.sbcImm 0x5DE1) := by
  refine ⟨?_, ?_, ?_, ?_, ?_, ?_, ?_, ?_, ?_, ?_, ?_, ?_⟩ <;> rfl

/-- No bytes, or too few, are refused by name. -/
theorem test_decode_truncated :
    decode true true [] = .error .empty ∧ decode true true [0x20, 0x34] = .error (.truncated 0x20) := ⟨rfl, rfl⟩

/-- A table word is read with 8-bit immediates, and what lies above its bits is zero. -/
theorem test_table_word :
    decodeTableWord 16 0x34A9 = some (.ldaImm 0x0034) ∧ decodeTableWord 24 0x123420 = some (.jsrAbs 0x1234) ∧
    decodeTableWord 8 0x5C = some (.jmlLong 0x000000) ∧ decodeTableWord 24 0x7E0054 = some (.mvn 0x00 0x7E) :=
  ⟨rfl, rfl, rfl, rfl⟩

/-- A table word placed in the state after reset is the next instruction run. -/
theorem test_with_fetch_word :
    steps (State.reset.withFetchWord 16 0x80A9) (fun t => t.a == 0x0080 && t.pc == 0x0002 && t.p == 0xB4) = true ∧
    steps ({ State.reset with stopped := true, nmiPending := true }.withFetchWord 8 0xEB) (fun t =>
      t.pc == 0x0001 && t.cycles == 3) = true := by decide +kernel

/-! ### Vectors of 95_test_vectors.md, one step each -/

/-- Vectors LS1, LS2, LS6, LS7, LS9, LS10, LS14. -/
theorem test_vectors_loads_stores_1 :
    -- LS1 (R171)
    steps (load [(0x000200, [0xA9, 0x00])]
      { start with a := 0x1234 }) (fun t =>
      t.a == 0x1200 && t.pc == 0x0202 && t.p == 0x36 && t.cycles == 2) = true ∧
    -- LS2 (R171)
    steps (load [(0x000200, [0xA9, 0x34, 0x12])]
      { start with e := false, p := 0x04, a := 0x00CD }) (fun t =>
      t.a == 0x1234 && t.pc == 0x0203 && t.p == 0x04 && t.cycles == 3) = true ∧
    -- LS6 (R174)
    steps (load [(0x000200, [0x8D, 0x00, 0x03])]
      { start with e := false, p := 0x04, a := 0x3413 }) (fun t =>
      t.pc == 0x0203 && t.p == 0x04 && t.busRead 0x000300 == 0x13 && t.busRead 0x000301 == 0x34 && t.cycles == 5) = true ∧
    -- LS7 (R175)
    steps (load [(0x000200, [0x86, 0x10])]
      { start with x := 0x0005 }) (fun t =>
      t.pc == 0x0202 && t.p == 0x34 && t.busRead 0x000010 == 0x05 && t.cycles == 3) = true ∧
    -- LS9 (R177)
    steps (load [(0x000200, [0x9C, 0x00, 0x03]), (0x000300, [0xAA, 0xBB])]
      { start with e := false, p := 0x04 }) (fun t =>
      t.pc == 0x0203 && t.p == 0x04 && t.busRead 0x000300 == 0x00 && t.busRead 0x000301 == 0x00 && t.cycles == 5) = true ∧
    -- LS10 (R171, R133, R155)
    steps (load [(0x000200, [0xBD, 0xF0, 0xFF]), (0x130010, [0x5A])]
      { start with e := false, db := 0x12, x := 0x0020 }) (fun t =>
      t.a == 0x005A && t.pc == 0x0203 && t.p == 0x34 && t.cycles == 5) = true ∧
    -- LS14 (R171, R137, R68)
    steps (load [(0x000200, [0xA5, 0xFF]), (0x00FFFF, [0x34]), (0x000000, [0x12]), (0x010000, [0x99])]
      { start with e := false, p := 0x04, d := 0xFF00 }) (fun t =>
      t.a == 0x1234 && t.pc == 0x0202 && t.p == 0x04 && t.cycles == 4) = true := by
  decide +kernel

/-- Vectors LS15, LS17, LS20, LS21, LS23, LS27, LS30. -/
theorem test_vectors_loads_stores_2 :
    -- LS15 (R171, R132, R67)
    steps (load [(0x000200, [0xAD, 0xFF, 0xFF]), (0x00FFFF, [0x34]), (0x000000, [0x12]), (0x010000, [0x99])]
      { start with e := false, p := 0x04 }) (fun t =>
      t.a == 0x9934 && t.pc == 0x0203 && t.p == 0x84 && t.cycles == 5) = true ∧
    -- LS17 (R174, R143)
    steps (load [(0x000200, [0x91, 0x10]), (0x000010, [0x00, 0x30])]
      { start with e := false, a := 0x0055, y := 0x0001 }) (fun t =>
      t.pc == 0x0202 && t.p == 0x34 && t.busRead 0x003001 == 0x55 && t.cycles == 6) = true ∧
    -- LS20 (R171, R142)
    steps (load [(0x000200, [0xA1, 0x10]), (0x000014, [0x00, 0x30]), (0x003000, [0x03])]
      { start with e := false, x := 0x0004 }) (fun t =>
      t.a == 0x0003 && t.pc == 0x0202 && t.p == 0x34 && t.cycles == 6) = true ∧
    -- LS21 (R171, R144)
    steps (load [(0x000200, [0xB7, 0x10]), (0x000010, [0xFF, 0xFF, 0x7E]), (0x7F0001, [0x04])]
      { start with e := false, y := 0x0002 }) (fun t =>
      t.a == 0x0004 && t.pc == 0x0202 && t.p == 0x34 && t.cycles == 6) = true ∧
    -- LS23 (R171, R146)
    steps (load [(0x000200, [0xB3, 0x01]), (0x0001FD, [0x00, 0x40]), (0x7E4010, [0x06])]
      { start with e := false, sp := 0x01FC, db := 0x7E, y := 0x0010 }) (fun t =>
      t.a == 0x0006 && t.pc == 0x0202 && t.p == 0x34 && t.cycles == 7) = true ∧
    -- LS27 (R172, R134, R155)
    steps (load [(0x000200, [0xBE, 0x00, 0x12]), (0x001300, [0xCD, 0xAB])]
      { start with e := false, p := 0x24, y := 0x0100 }) (fun t =>
      t.x == 0xABCD && t.pc == 0x0203 && t.p == 0xA4 && t.cycles == 6) = true ∧
    -- LS30 (R171, R70 (fetch wraps inside PB))
    steps (load [(0x01FFFF, [0xA9]), (0x010000, [0x5A]), (0x020000, [0x99])]
      { start with pb := 0x01, pc := 0xFFFF }) (fun t =>
      t.a == 0x005A && t.pc == 0x0001 && t.p == 0x34 && t.cycles == 2) = true := by
  decide +kernel

/-- Vectors AL1, AL2, AL7, AL12, AL17. -/
theorem test_vectors_alu_1 :
    -- AL1 (R194, R190)
    steps (load [(0x000200, [0x69, 0x01])]
      { start with a := 0x007F }) (fun t =>
      t.a == 0x0080 && t.pc == 0x0202 && t.p == 0xF4 && t.cycles == 2) = true ∧
    -- AL2 (R194, R191)
    steps (load [(0x000200, [0x69, 0x01])]
      { start with a := 0x0009, p := 0x3C }) (fun t =>
      t.a == 0x0010 && t.pc == 0x0202 && t.p == 0x3C && t.cycles == 2) = true ∧
    -- AL7 (R194, R191)
    steps (load [(0x000200, [0x69, 0x00, 0x00])]
      { start with e := false, p := 0x0D, a := 0x9999 }) (fun t =>
      t.a == 0x0000 && t.pc == 0x0203 && t.p == 0x0F && t.cycles == 3) = true ∧
    -- AL12 (R195, R192)
    steps (load [(0x000200, [0xE9, 0x01])]
      { start with a := 0x0000, p := 0x35 }) (fun t =>
      t.a == 0x00FF && t.pc == 0x0202 && t.p == 0xB4 && t.cycles == 2) = true ∧
    -- AL17 (R195, R193)
    steps (load [(0x000200, [0xE9, 0x01, 0x00])]
      { start with e := false, p := 0x0D, a := 0x1000 }) (fun t =>
      t.a == 0x0999 && t.pc == 0x0203 && t.p == 0x0D && t.cycles == 3) = true := by
  decide +kernel

/-- Vectors AL18, AL22, AL24, AL27, AL28. -/
theorem test_vectors_alu_2 :
    -- AL18 (R196)
    steps (load [(0x000200, [0x29, 0x3C])]
      { start with a := 0x12F0 }) (fun t =>
      t.a == 0x1230 && t.pc == 0x0202 && t.p == 0x34 && t.cycles == 2) = true ∧
    -- AL22 (R199)
    steps (load [(0x000200, [0xC9, 0x01])]
      { start with a := 0x0000 }) (fun t =>
      t.pc == 0x0202 && t.p == 0xB4 && t.cycles == 2) = true ∧
    -- AL24 (R200)
    steps (load [(0x000200, [0xE0, 0xFF, 0x00])]
      { start with e := false, p := 0x24, x := 0x0100 }) (fun t =>
      t.pc == 0x0203 && t.p == 0x25 && t.cycles == 3) = true ∧
    -- AL27 (R202)
    steps (load [(0x000200, [0x89, 0xC0])]
      { start with a := 0x0000 }) (fun t =>
      t.pc == 0x0202 && t.p == 0x36 && t.cycles == 2) = true ∧
    -- AL28 (R202)
    steps (load [(0x000200, [0x2C, 0x00, 0x03]), (0x000300, [0x00, 0xC0])]
      { start with e := false, p := 0x04, a := 0x8000 }) (fun t =>
      t.pc == 0x0203 && t.p == 0xC4 && t.cycles == 5) = true := by
  decide +kernel

/-- Vectors RM3, RM5, RM7, RM10, RM12. -/
theorem test_vectors_read_modify_write_1 :
    -- RM3 (R222)
    steps (load [(0x000200, [0x4A])]
      { start with e := false, p := 0x04, a := 0x8001 }) (fun t =>
      t.a == 0x4000 && t.pc == 0x0201 && t.p == 0x05 && t.cycles == 2) = true ∧
    -- RM5 (R224)
    steps (load [(0x000200, [0x6A])]
      { start with a := 0x0002, p := 0x35 }) (fun t =>
      t.a == 0x0081 && t.pc == 0x0201 && t.p == 0xB4 && t.cycles == 2) = true ∧
    -- RM7 (R225)
    steps (load [(0x000200, [0xE6, 0x10]), (0x000010, [0xFF])]
      start) (fun t =>
      t.pc == 0x0202 && t.p == 0x36 && t.busRead 0x000010 == 0x00 && t.cycles == 5) = true ∧
    -- RM10 (R227)
    steps (load [(0x000200, [0xE8])]
      { start with x := 0x00FF }) (fun t =>
      t.x == 0x0000 && t.pc == 0x0201 && t.p == 0x36 && t.cycles == 2) = true ∧
    -- RM12 (R228)
    steps (load [(0x000200, [0xC8])]
      { start with e := false, p := 0x24, y := 0xFFFF }) (fun t =>
      t.y == 0x0000 && t.pc == 0x0201 && t.p == 0x26 && t.cycles == 2) = true := by
  decide +kernel

/-- Vectors RM15, RM16, RM17, RM19. -/
theorem test_vectors_read_modify_write_2 :
    -- RM15 (R231)
    steps (load [(0x000200, [0x14, 0x10]), (0x000010, [0x3C])]
      { start with a := 0x000F }) (fun t =>
      t.pc == 0x0202 && t.p == 0x34 && t.busRead 0x000010 == 0x30 && t.cycles == 5) = true ∧
    -- RM16 (R232)
    steps (load [(0x000200, [0x0C, 0x00, 0x03]), (0x000300, [0x30])]
      { start with a := 0x000F }) (fun t =>
      t.pc == 0x0203 && t.p == 0x36 && t.busRead 0x000300 == 0x3F && t.cycles == 6) = true ∧
    -- RM17 (R221, R220)
    steps (load [(0x000200, [0x0E, 0x00, 0x03]), (0x000300, [0x00, 0x80])]
      { start with e := false, p := 0x04 }) (fun t =>
      t.pc == 0x0203 && t.p == 0x07 && t.busRead 0x000300 == 0x00 && t.busRead 0x000301 == 0x00 && t.cycles == 8) = true ∧
    -- RM19 (R223)
    steps (load [(0x000200, [0x2A])]
      { start with e := false, p := 0x04, a := 0x8000 }) (fun t =>
      t.a == 0x0000 && t.pc == 0x0201 && t.p == 0x07 && t.cycles == 2) = true := by
  decide +kernel

/-- Vectors CT3, CT9, CT10, CT13, CT14, CT16. -/
theorem test_vectors_control_1 :
    -- CT3 (R253, R151)
    steps (load [(0x0010F0, [0xF0, 0x20])]
      { start with pc := 0x10F0, p := 0x36 }) (fun t =>
      t.pc == 0x1112 && t.p == 0x36 && t.cycles == 4) = true ∧
    -- CT9 (R259)
    steps (load [(0x01FFF0, [0x80, 0x20])]
      { start with pc := 0xFFF0, pb := 0x01 }) (fun t =>
      t.pc == 0x0012 && t.p == 0x34 && t.cycles == 4) = true ∧
    -- CT10 (R260)
    steps (load [(0x001000, [0x82, 0x31, 0x02])]
      { start with pc := 0x1000 }) (fun t =>
      t.pc == 0x1234 && t.p == 0x34 && t.cycles == 4) = true ∧
    -- CT13 (R261, R148)
    steps (load [(0x020200, [0x6C, 0x00, 0x03]), (0x000300, [0x34, 0x12])]
      { start with pb := 0x02, db := 0x03 }) (fun t =>
      t.pc == 0x1234 && t.p == 0x34 && t.cycles == 5) = true ∧
    -- CT14 (R261, R150)
    steps (load [(0x809100, [0x7C, 0x00, 0x90]), (0x809004, [0x00, 0xA0])]
      { start with e := false, pb := 0x80, x := 0x0004, pc := 0x9100 }) (fun t =>
      t.pc == 0xA000 && t.p == 0x34 && t.cycles == 6) = true ∧
    -- CT16 (R262, R149)
    steps (load [(0x000200, [0xDC, 0x00, 0x03]), (0x000300, [0x00, 0x80, 0xC0])]
      start) (fun t =>
      t.pc == 0x8000 && t.pb == 0xC0 && t.p == 0x34 && t.cycles == 6) = true := by
  decide +kernel

/-- Vectors CT18, CT21, CT22, CT23, CT25, CT27. -/
theorem test_vectors_control_2 :
    -- CT18 (R263)
    steps (load [(0x008000, [0x20, 0x34, 0x12])]
      { start with pc := 0x8000 }) (fun t =>
      t.sp == 0x01FD && t.pc == 0x1234 && t.p == 0x34 && t.busRead 0x0001FF == 0x80 &&
      t.busRead 0x0001FE == 0x02 && t.cycles == 6) = true ∧
    -- CT21 (R267)
    steps (load [(0x000200, [0x40]), (0x0001FD, [0x20, 0x02, 0x02])]
      { start with sp := 0x01FC }) (fun t =>
      t.sp == 0x01FF && t.pc == 0x0202 && t.p == 0x30 && t.cycles == 6) = true ∧
    -- CT22 (R267)
    steps (load [(0x000200, [0x40]), (0x0001FC, [0x01, 0x00, 0x90, 0x80])]
      { start with e := false, sp := 0x01FB, x := 0x0012 }) (fun t =>
      t.sp == 0x01FF && t.pc == 0x9000 && t.pb == 0x80 && t.p == 0x01 && t.cycles == 7) = true ∧
    -- CT23 (R268, R405)
    steps (load [(0x000200, [0x00, 0xEA]), (0x00FFFE, [0x00, 0x03])]
      { start with p := 0x30 }) (fun t =>
      t.sp == 0x01FC && t.pc == 0x0300 && t.p == 0x34 && t.busRead 0x0001FF == 0x02 &&
      t.busRead 0x0001FE == 0x02 && t.busRead 0x0001FD == 0x30 && t.cycles == 7) = true ∧
    -- CT25 (R268, R405)
    steps (load [(0x123456, [0x00, 0x00]), (0x00FFE6, [0x00, 0xB0])]
      { start with e := false, p := 0x09, pb := 0x12, sp := 0x1FFF, pc := 0x3456 }) (fun t =>
      t.sp == 0x1FFB && t.pc == 0xB000 && t.pb == 0x00 && t.p == 0x05 && t.busRead 0x001FFF == 0x12 &&
      t.busRead 0x001FFE == 0x34 && t.busRead 0x001FFD == 0x58 && t.busRead 0x001FFC == 0x09 && t.cycles == 8) = true ∧
    -- CT27 (R265)
    steps (load [(0x000200, [0x60]), (0x0001FE, [0xFF, 0xFF])]
      { start with sp := 0x01FD }) (fun t =>
      t.sp == 0x01FF && t.pc == 0x0000 && t.p == 0x34 && t.cycles == 6) = true := by
  decide +kernel

/-- Vectors SK2, SK7, SK11, SK12, SK13. -/
theorem test_vectors_stack_1 :
    -- SK2 (R292)
    steps (load [(0x000200, [0xDA])]
      { start with x := 0x0005 }) (fun t =>
      t.sp == 0x01FE && t.pc == 0x0201 && t.p == 0x34 && t.busRead 0x0001FF == 0x05 && t.cycles == 3) = true ∧
    -- SK7 (R297)
    steps (load [(0x800200, [0x4B])]
      { start with pb := 0x80 }) (fun t =>
      t.sp == 0x01FE && t.pc == 0x0201 && t.p == 0x34 && t.busRead 0x0001FF == 0x80 && t.cycles == 3) = true ∧
    -- SK11 (R301, R39)
    steps (load [(0x000200, [0x28]), (0x0001FF, [0x10])]
      { start with e := false, p := 0x04, x := 0x1234, sp := 0x01FE }) (fun t =>
      t.x == 0x0034 && t.sp == 0x01FF && t.pc == 0x0201 && t.p == 0x10 && t.cycles == 4) = true ∧
    -- SK12 (R301, R40)
    steps (load [(0x000200, [0x28]), (0x0001FF, [0x00])]
      { start with sp := 0x01FE }) (fun t =>
      t.sp == 0x01FF && t.pc == 0x0201 && t.p == 0x30 && t.cycles == 4) = true ∧
    -- SK13 (R302)
    steps (load [(0x000200, [0xAB]), (0x0001FF, [0x7E])]
      { start with sp := 0x01FE }) (fun t =>
      t.sp == 0x01FF && t.pc == 0x0201 && t.db == 0x7E && t.p == 0x34 && t.cycles == 4) = true := by
  decide +kernel

/-- Vectors SK14, SK16, SK17, SK19, SK23. -/
theorem test_vectors_stack_2 :
    -- SK14 (R303)
    steps (load [(0x000200, [0x2B]), (0x0001FE, [0x00, 0x21])]
      { start with sp := 0x01FD }) (fun t =>
      t.sp == 0x01FF && t.pc == 0x0201 && t.d == 0x2100 && t.p == 0x34 && t.cycles == 5) = true ∧
    -- SK16 (R305)
    steps (load [(0x000200, [0xD4, 0x10]), (0x000010, [0x00, 0x80])]
      start) (fun t =>
      t.sp == 0x01FD && t.pc == 0x0202 && t.p == 0x34 && t.busRead 0x0001FF == 0x80 &&
      t.busRead 0x0001FE == 0x00 && t.cycles == 6) = true ∧
    -- SK17 (R306)
    steps (load [(0x001000, [0x62, 0x31, 0x02])]
      { start with pc := 0x1000 }) (fun t =>
      t.sp == 0x01FD && t.pc == 0x1003 && t.p == 0x34 && t.busRead 0x0001FF == 0x12 &&
      t.busRead 0x0001FE == 0x34 && t.cycles == 6) = true ∧
    -- SK19 (R71 (emulation wrap))
    steps (load [(0x000200, [0x68]), (0x000100, [0x5A])]
      { start with sp := 0x01FF }) (fun t =>
      t.a == 0x005A && t.sp == 0x0100 && t.pc == 0x0201 && t.p == 0x34 && t.cycles == 4) = true ∧
    -- SK23 (R71, R72 (emulation wrap inside a word))
    steps (load [(0x000200, [0x0B])]
      { start with sp := 0x0100, d := 0xBEEF }) (fun t =>
      t.sp == 0x01FE && t.pc == 0x0201 && t.p == 0x34 && t.busRead 0x000100 == 0xBE &&
      t.busRead 0x0001FF == 0xEF && t.cycles == 4) = true := by
  decide +kernel

/-- Vectors FT2, FT3, FT4, FT14, FT16. -/
theorem test_vectors_flags_transfers_1 :
    -- FT2 (R320, R40)
    steps (load [(0x000200, [0xC2, 0x30])]
      start) (fun t =>
      t.pc == 0x0202 && t.p == 0x34 && t.cycles == 3) = true ∧
    -- FT3 (R321, R39)
    steps (load [(0x000200, [0xE2, 0x30])]
      { start with e := false, p := 0x00, x := 0x1234, y := 0xFF00, a := 0xABCD }) (fun t =>
      t.x == 0x0034 && t.y == 0x0000 && t.pc == 0x0202 && t.p == 0x30 && t.cycles == 3) = true ∧
    -- FT4 (R322)
    steps (load [(0x000200, [0x18])]
      { start with p := 0x35 }) (fun t =>
      t.pc == 0x0201 && t.p == 0x34 && t.cycles == 2) = true ∧
    -- FT14 (R331)
    steps (load [(0x000200, [0x8A])]
      { start with x := 0x0000, a := 0x5501 }) (fun t =>
      t.a == 0x5500 && t.pc == 0x0201 && t.p == 0x36 && t.cycles == 2) = true ∧
    -- FT16 (R331)
    steps (load [(0x000200, [0x8A])]
      { start with e := false, p := 0x14, x := 0x0080, a := 0xFFFF }) (fun t =>
      t.a == 0x0080 && t.pc == 0x0201 && t.p == 0x14 && t.cycles == 2) = true := by
  decide +kernel

/-- Vectors FT22, FT25, FT29, FT33. -/
theorem test_vectors_flags_transfers_2 :
    -- FT22 (R336)
    steps (load [(0x000200, [0x9A])]
      { start with x := 0x0080 }) (fun t =>
      t.sp == 0x0180 && t.pc == 0x0201 && t.p == 0x34 && t.cycles == 2) = true ∧
    -- FT25 (R338)
    steps (load [(0x000200, [0x7B])]
      { start with a := 0x1234 }) (fun t =>
      t.a == 0x0000 && t.pc == 0x0201 && t.p == 0x36 && t.cycles == 2) = true ∧
    -- FT29 (R341)
    steps (load [(0x000200, [0xEB])]
      { start with a := 0x1234 }) (fun t =>
      t.a == 0x3412 && t.pc == 0x0201 && t.p == 0x34 && t.cycles == 3) = true ∧
    -- FT33 (R344, R39)
    steps (load [(0x000200, [0xFB])]
      { start with e := false, p := 0x05, x := 0x1234, y := 0x5678, sp := 0x1FF0, a := 0xABCD }) (fun t =>
      t.x == 0x0034 && t.y == 0x0078 && t.sp == 0x01F0 && t.pc == 0x0201 && t.e == true && t.p == 0x34 &&
      t.cycles == 2) = true := by
  decide +kernel

/-- Vectors BM1, BM4, BM6. -/
theorem test_vectors_block_misc :
    -- BM1 (R360, R366)
    steps (load [(0x00020D, [0x54, 0x7E, 0x00]), (0x000300, [0x11, 0x22, 0x33])]
      { start with e := false, p := 0x04, a := 0x0002, x := 0x0300, y := 0x0400, pc := 0x020D }) (fun t =>
      t.a == 0x0001 && t.x == 0x0301 && t.y == 0x0401 && t.pc == 0x020D && t.db == 0x7E && t.p == 0x04 &&
      t.busRead 0x7E0400 == 0x11 && t.cycles == 7) = true ∧
    -- BM4 (R360, R366 (8-bit index, 8-bit A flag))
    steps (load [(0x000200, [0x54, 0x00, 0x00]), (0x0000FF, [0x77])]
      { start with e := false, a := 0x0000, x := 0x00FF, y := 0x0000 }) (fun t =>
      t.a == 0xFFFF && t.x == 0x0000 && t.y == 0x0001 && t.pc == 0x0203 && t.p == 0x34 &&
      t.busRead 0x000000 == 0x77 && t.cycles == 7) = true ∧
    -- BM6 (R363)
    steps (load [(0x000200, [0x42, 0xFF])]
      start) (fun t =>
      t.pc == 0x0202 && t.p == 0x34 && t.cycles == 2) = true := by
  decide +kernel

/-- Vectors EX1, EX2, EX3. -/
theorem test_vectors_interrupts :
    -- EX1 (R406, R405, R410)
    steps (load [(0x000202, [0xEA]), (0x00FFFE, [0x00, 0x03])]
      { start with p := 0x30, pc := 0x0202, irqPending := true }) (fun t =>
      t.sp == 0x01FC && t.pc == 0x0300 && t.p == 0x34 && t.busRead 0x0001FF == 0x02 &&
      t.busRead 0x0001FE == 0x02 && t.busRead 0x0001FD == 0x20 && t.cycles == 7) = true ∧
    -- EX2 (R406, R405)
    steps (load [(0x809000, [0xEA]), (0x00FFEA, [0x00, 0xA0])]
      { start with e := false, p := 0x01, pb := 0x80, pc := 0x9000, sp := 0x1FFF, nmiPending := true }) (fun t =>
      t.sp == 0x1FFB && t.pc == 0xA000 && t.pb == 0x00 && t.p == 0x05 && t.busRead 0x001FFF == 0x80 &&
      t.busRead 0x001FFE == 0x90 && t.busRead 0x001FFD == 0x00 && t.busRead 0x001FFC == 0x01 && t.cycles == 8) = true ∧
    -- EX3 (R410, R419 (masked IRQ held))
    steps (load [(0x000200, [0xEA])]
      { start with irqPending := true }) (fun t =>
      t.pc == 0x0201 && t.p == 0x34 && t.cycles == 2) = true := by
  decide +kernel

/-! ### Decimal digits: the boundary of each loop -/

/-- 0x99 + 1 wraps with a carry, 0x00 - 1 wraps with a borrow (42_alu.md R191, R193). -/
theorem test_decimal_wrap :
    adcDec .w8 0x0099 0x0001 false = { r := 0x0000, c := true, v := false } ∧
    (sbcDec .w8 0x0000 0x0001 true).r = 0x0099 ∧ (sbcDec .w8 0x0000 0x0001 true).c = false := by decide +kernel

/-! ### The parameters: the cycle table and the bus -/

/-- Rows of the table of R111, by opcode byte. -/
theorem test_cycle_rows :
    defaultCycles.row 0xA9 = { base := 2, m16 := 1 } ∧ defaultCycles.row 0xB1 = { base := 5, m16 := 1, dl := 1, px := 1 } ∧
    defaultCycles.row 0x1E = { base := 7, m16 := 2 } ∧ defaultCycles.row 0xF0 = { base := 2, t := 1, tx := 1 } ∧
    defaultCycles.row 0x40 = { base := 6, e0 := 1 } ∧ defaultCycles.row 0x00 = { base := 7, e0 := 1 } ∧
    defaultCycles.row 0xD4 = { base := 6, dl := 1 } ∧ defaultCycles.row 0xFF = { base := 5, m16 := 1 } := by
  decide +kernel

/-- A cycle table with NOP at 5 and an interrupt entry at 9 + e0: only those two change, and only in their cycles (D5). -/
def slowTable : CycleTable :=
  { opcodes := defaultCycles.opcodes.set 0xEA { base := 5 }, entry := { base := 9, e0 := 1 } }

/-- NOP, INX and an NMI entry under that table. -/
theorem test_base_cycles :
    let s := { start with cfg := { start.cfg with baseCycles := slowTable } }
    steps (load [(0x000200, [0xEA])] s) (fun t => t.cycles == 5 && t.pc == 0x0201) = true ∧
    steps (load [(0x000200, [0xE8])] s) (fun t => t.cycles == 2) = true ∧
    steps { s with nmiPending := true } (fun t => t.cycles == 9 && t.pc == 0x0000) = true ∧
    steps { s with nmiPending := true, e := false } (fun t => t.cycles == 10) = true ∧
    steps s (fun t => t.cycles == 7) = true := by decide +kernel

/-- A platform bus that meets R61: read/write bytes, under them bytes whose writes are discarded, bytes whose low half alone
is written, and ROM in bank 0. -/
def platformBus : List Region :=
  [ { base := 0x000000, size := 0x2000, kind := .ram .plain, home := 0x7E0000 },
    { base := 0x002000, size := 0x1000, kind := .ram (.masked 0x00), home := 0x7E0000 },
    { base := 0x003000, size := 0x1000, kind := .ram (.masked 0x0F), home := 0x7E0000 },
    { base := 0x008000, size := 0x8000, kind := .rom, home := 0x000000 } ]

/-- What writes leave on that bus: a mirror sees every write, and the opcode byte of ROM in bank 0 is run. -/
theorem test_platform_bus :
    let s := { start with cfg := { start.cfg with bus := platformBus, romSize := 2, rom := [(0, 0xE8), (1, 0xEA)] } }
    let t := s.busPoke 0x000010 0xA5
    t.busRead 0x002010 = 0xA5 ∧ (t.busPoke 0x002010 0xFF).busRead 0x000010 = 0xA5 ∧
    (t.busPoke 0x003010 0xFF).busRead 0x000010 = 0xAF ∧ (t.busPoke 0x008001 0xFF).busRead 0x008001 = 0xEA ∧
    t.busRead 0x004010 = 0x00 ∧
    steps { t with pc := 0x8002 } (fun u => u.x == 0x0001 && u.pc == 0x8003) = true := by decide +kernel

/-! ### The unknown opcode, the host -/

/-- Vector UN1: with Undefined = 42, the byte 42 moves PC by one and is recorded. -/
theorem test_vector_UN1 :
    steps (load [(0x000200, [0x42, 0xFF])]
      { start with cfg := { start.cfg with undefinedOpcodes := [0x42] } }) (fun t =>
      t.pc == 0x0201 && t.diag == [{ opcode := 0x42, addr := 0x000200 }] && t.cycles == 2) = true := by decide +kernel

/-- Vectors HR1 to HR4: write_register truncates and restores the mode invariants. -/
theorem test_vectors_HR :
    (start.writeRegister .sp 0x1234).sp = 0x0134 ∧ (start.writeRegister .p 0x00).p = 0x30 ∧
    ({ start with e := false, p := 0x10 }.writeRegister .x 0xABCD).x = 0x00CD ∧
    ({ start with e := false, p := 0x00, x := 0x1234, sp := 0x1FFF }.writeRegister .e 1).sp = 0x01FF := by
  decide +kernel

/-- Vector RS1: reset reads its vector and is the way out of `stopped`. -/
theorem test_vector_RS1 :
    let s := { load [(0x00FFFC, [0x00, 0x80])] start with
      stopped := true, e := false, irqPending := true, nmiPending := true, cycles := 12345 }.hostReset
    s.pc = 0x8000 ∧ s.stopped = false ∧ s.e = true ∧ s.cycles = 0 ∧ s.busRead 0x00FFFD = 0x80 := by decide +kernel

/-! ### Witnesses: a state and operands that meet the hypotheses of each obligation -/

/-- A native state with 16-bit widths. -/
def native : State := { start with e := false, p := 0x04, sp := 0x1FFF }

/-- DecodeOfEncode. -/
theorem witness_DecodeOfEncode : (Instr.ldaImm 0x1234).wf false true = true := by decide

/-- EncodeOfDecode. -/
theorem witness_EncodeOfDecode : decode false true [0xA9, 0x34, 0x12, 0xEA] = .ok (.ldaImm 0x1234, [0xEA]) := rfl

/-- StepRunsTheDecodedInstruction, in a state that an IRQ has woken from WAI too. -/
theorem witness_StepRunsTheDecodedInstruction :
    let s := { load [(0x000200, [0xA9, 0x80])] start with waiting := true, irqPending := true }
    s.Running ∧ s.fetchOpcode ∉ s.cfg.undefinedOpcodes ∧
      decode (s.flag .m) (s.flag .x) s.fetchBytes = .ok (.ldaImm 0x0080, [0x00, 0x00]) := by
  refine ⟨?_, ?_, rfl⟩
  · unfold State.Running
    decide +kernel
  · decide +kernel

/-- HaltedStepChangesNothing, both clauses. -/
theorem witness_HaltedStepChangesNothing :
    { start with stopped := true, nmiPending := true }.stopped = true ∧
    { start with waiting := true }.waiting = true ∧ start.irqPending = false ∧ start.nmiPending = false := by decide

/-- StepTakesInterrupts, both clauses. -/
theorem witness_StepTakesInterrupts :
    { start with nmiPending := true }.stopped = false ∧ { start with nmiPending := true }.nmiPending = true ∧
    { start with irqPending := true, p := 0x30 }.irqPending = true ∧
    { start with irqPending := true, p := 0x30 }.flag .i = false ∧ start.nmiPending = false := by decide

/-- Power-on with WRAM_INIT given: under FlatTestBus the vector it holds is PC (R441), and under MinimalMap a byte of it is
read at both its addresses (R62, R65). -/
theorem test_power_on :
    (State.powerOn { start.cfg with wramInit := [(0x00FFFC, 0x00), (0x00FFFD, 0x80)] }).pc = 0x8000 ∧
    (let s := State.powerOn { defaultConfig with wramInit := [(0x7E1FFF, 0x5A), (0x7E0000, 0xEA)] }
     s.busRead 0x001FFF = 0x5A ∧ s.busRead 0x7E1FFF = 0x5A ∧ s.fetchOpcode = 0xEA ∧ s.pc = 0x0000) := by
  decide +kernel

/-- ResetLeaves: the default bus is MinimalMap, and the first and last index of WRAM have an address. -/
theorem witness_ResetLeaves :
    defaultConfig.bus = minimalMap ∧ wramIndex 0x001FFF = some (0x1FFF : Fin 131072).val ∧
    wramIndex 0x7E0000 = some (0 : Fin 131072).val ∧ wramIndex 0x7FFFFF = some (0x1FFFF : Fin 131072).val := by decide

/-- StepOnUndefinedOpcode, running on and after a masked IRQ has ended WAI. -/
theorem witness_StepOnUndefinedOpcode :
    let s := load [(0x000200, [0x42])] { start with cfg := { start.cfg with undefinedOpcodes := [0x42] } }
    let w := { s with waiting := true, irqPending := true, p := 0x34 }
    (s.Running ∧ s.ModeInv ∧ s.fetchOpcode ∈ s.cfg.undefinedOpcodes) ∧
    (w.Running ∧ w.ModeInv ∧ w.fetchOpcode ∈ w.cfg.undefinedOpcodes) := by
  unfold State.Running State.ModeInv
  decide +kernel

/-- RtiUndoesEntry, ReturnUndoesCall, PullUndoesPush and StackTwoBytes in emulation mode, the stack wrapping in page 1. -/
theorem witness_stack_emulation :
    let s := { start with sp := 0x0101 }
    s.ModeInv ∧ s.e = true ∧ s.StackRoom 3 ∧ s.StackRoom 2 := by
  unfold State.ModeInv State.StackRoom
  decide +kernel

/-- The same in native mode, the stack wrapping in bank 0. -/
theorem witness_stack_native :
    let s := { native with sp := 0x0001 }
    s.ModeInv ∧ s.e = false ∧ s.StackRoom 4 ∧ s.StackRoom 3 ∧ s.StackRoom 2 := by
  unfold State.ModeInv State.StackRoom
  decide +kernel

/-- InstructionsKeepModeInv, StepKeepsInv and HostMovesKeepInv: a state of each mode, and a step from one. -/
theorem witness_Inv :
    start.Inv ∧ { native with p := 0x10, x := 0x0012, y := 0x00FF }.Inv ∧
    ∃ t : State, step (load [(0x000200, [0xEA])] start) = .next t := by
  refine ⟨?_, ?_, _, rfl⟩ <;>
  · unfold State.Inv State.ModeInv
    decide +kernel

/-- WritersOfControlState: an instruction that writes each of PB, DB, D, E, `stopped` and `waiting`. -/
theorem witness_WritersOfControlState :
    (∃ t : State, exec (.jmlLong 0x7E8000) start = .next t ∧ t.pb ≠ start.pb) ∧
    (∃ t : State, exec (.mvn 0x7E 0x00) start = .next t ∧ t.db ≠ start.db) ∧
    (∃ t : State, exec .tcd { start with a := 0x2100 } = .next t ∧ t.d ≠ start.d) ∧
    (∃ t : State, exec .xce start = .next t ∧ t.e ≠ start.e) ∧
    (∃ t : State, exec .stp start = .next t ∧ t.stopped ≠ start.stopped) ∧
    ∃ t : State, exec .wai start = .next t ∧ t.waiting ≠ start.waiting := by
  refine ⟨⟨_, rfl, ?_⟩, ⟨_, rfl, ?_⟩, ⟨_, rfl, ?_⟩, ⟨_, rfl, ?_⟩, ⟨_, rfl, ?_⟩, ⟨_, rfl, ?_⟩⟩ <;> decide +kernel

/-- HighAccumulatorByteKept: P.M = 1, and PLA and XBA change A.h. -/
theorem witness_HighAccumulatorByteKept :
    { start with a := 0x12CD }.flag .m = true ∧
    (∃ t : State, exec .pla { start with a := 0x12CD } = .next t ∧ hi t.a ≠ 0x12) ∧
    ∃ t : State, exec .xba { start with a := 0x12CD } = .next t ∧ hi t.a ≠ 0x12 := by
  refine ⟨by decide, ⟨_, rfl, ?_⟩, ⟨_, rfl, ?_⟩⟩ <;> decide +kernel

/-- BusReadAfterWrite: the mirror of WRAM is the same byte, no byte at ROM, FlatTestBus, and a byte that is stored and does
not take what is written. -/
theorem witness_BusReadAfterWrite :
    State.reset.writable 0x001FFF = true ∧ State.reset.sameByte 0x001FFF 0x7E1FFF ∧
    ¬State.reset.sameByte 0x800000 0x800000 ∧ start.cfg.bus = flatTestBus ∧
    (let s := { start with cfg := { start.cfg with bus := platformBus } }
     s.sameByte 0x003010 0x000010 ∧ s.writable 0x003010 = false ∧ s.stored 0x003010 0xFF = 0x0F) := by decide +kernel

/-- InstructionsAdvanceCycles, and the two cases of `charge`: the default table, and one that is not, both positive. -/
theorem witness_InstructionsAdvanceCycles :
    start.cfg.baseCycles = defaultCycles ∧ start.cfg.baseCycles.wf ∧ slowTable ≠ defaultCycles ∧ slowTable.wf ∧
    start.charge .nop 2 = 2 ∧ { start with cfg := { start.cfg with baseCycles := slowTable } }.charge .nop 2 = 5 := by
  decide +kernel

/-- MinimalMapLayout: the boundary addresses of each row. -/
theorem witness_MinimalMapLayout :
    State.reset.cfg.bus = minimalMap ∧
    wramIndex 0x000000 = some 0 ∧ wramIndex 0x001FFF = some 0x1FFF ∧ wramIndex 0x002000 = none ∧
    wramIndex 0x7DFFFF = none ∧ wramIndex 0x7E0000 = some 0 ∧ wramIndex 0x7FFFFF = some 0x1FFFF ∧
    wramIndex 0x800000 = none ∧ { State.reset.cfg with romSize := 0x300 }.romSize = 0x300 ∧
    ∃ s : State, s.cfg.bus = minimalMap ∧ 0 < s.cfg.romSize ∧ s.busRead 0x800301 = 0x5A := by
  refine ⟨rfl, rfl, rfl, rfl, rfl, rfl, rfl, rfl, rfl,
    { State.reset with cfg := { State.reset.cfg with romSize := 0x300, rom := [(1, 0x5A)] } }, rfl, ?_, ?_⟩ <;>
  decide +kernel

/-- MultiByteAccess: a linear and a bank-wrapped address at the edges. -/
theorem witness_MultiByteAccess :
    (Ea.mk 0xFFFFFF .lin).next = 0x000000 ∧ (Ea.mk 0x00FFFF .lin).next = 0x010000 ∧
    (Ea.mk 0x12FFFF .b0).next = 0x120000 := by decide

/-- OperandReadsBack, at the edge of bank 0. -/
theorem witness_OperandReadsBack :
    let ea := Ea.mk 0x00FFFF .b0
    start.writable ea.addr = true ∧ start.writable ea.next = true ∧ start.home ea.addr ≠ start.home ea.next := by
  decide +kernel

/-- IndirectAddresses: pointers that wrap in bank 0. -/
theorem witness_IndirectAddresses :
    let s := { native with d := 0xFFF0, x := 0xFFFF, sp := 0xFFFF }
    (0x0001 : Word).toNat = (s.d.toNat + (0x11 : Byte).toNat) % 65536 ∧
    (0x0000 : Word).toNat = (s.d.toNat + (0x11 : Byte).toNat + s.x.toNat) % 65536 ∧
    (0x0010 : Word).toNat = (s.sp.toNat + (0x11 : Byte).toNat) % 65536 := by decide

/-- BinaryAdders, both widths. -/
theorem witness_BinaryAdders :
    (0x00FF : Word).toNat < 2 ^ Width.w8.bits ∧ (0xFFFF : Word).toNat < 2 ^ Width.w16.bits := by decide

/-- DecimalAdd and DecimalSubtract: decimal operands of both widths. -/
theorem witness_decimal :
    validBcd 0x0099 (Width.w8.bits / 4) ∧ validBcd 0x9999 (Width.w16.bits / 4) ∧ bcdValue 0x9999 4 = 9999 := by
  unfold validBcd
  decide

/-- LdxLdyLoad: an 8-bit and a 16-bit index. -/
theorem witness_LdxLdyLoad : start.flag .x = true ∧ native.flag .x = false := by decide

/-- BranchInstructions: a branch taken, and the same not taken. -/
theorem witness_BranchInstructions : { start with p := 0x36 }.flag .z = true ∧ start.flag .z = false := by decide

end Sys2Proof.Machine
end

section
/-! PROOFS. What the shared flag operation `SetNZ` writes and what it keeps (R9). -/

namespace Sys2Proof.Machine

/-- The frame of `SetNZ` (R9): P is its only write. -/
theorem State.setNZ_eq_with_p (s : State) (w : Width) (v : Word) :
    s.setNZ w v = { s with p := (s.setNZ w v).p } := rfl

theorem flagsKept_setNZ (s : State) (w : Width) (v : Word) : FlagsKept s (s.setNZ w v) [.n, .z] := by
  intro f hf
  have hn : f ≠ .n := fun h => hf (by simp [h])
  have hz : f ≠ .z := fun h => hf (by simp [h])
  rw [State.flag_setNZ, if_neg hz, if_neg hn]

/-- Settles O32: the frame of `SetNZ`, the meaning of N and Z (`NZof_setNZ`), and the flags it keeps. -/
theorem setNZWritesNAndZ : Obligations.SetNZWritesNAndZ := by
  intro s w v
  obtain ⟨hn, hz⟩ := NZof_setNZ s w v
  exact ⟨State.setNZ_eq_with_p s w v, hn, hz, flagsKept_setNZ s w v⟩

end Sys2Proof.Machine
end

section
/-! PROOFS. The default memory map (R62 to R64): what answers at each address of MinimalMap, and what its reads and writes
do there. -/

namespace Sys2Proof.Machine

/-! ### Reads and writes by slot -/

theorem State.busRead_of_rom {s : State} {a : Addr} {n : Nat} (h : s.slot a = .rom n) :
    s.busRead a = romByte s.cfg n := congrArg (slotRead s.cfg s.mem) h

theorem State.busRead_of_openBus {s : State} {a : Addr} (h : s.slot a = .openBus) : s.busRead a = 0x00 :=
  congrArg (slotRead s.cfg s.mem) h

theorem State.home_of_ram {s : State} {a h : Addr} {rule : WriteRule} (hs : s.slot a = .ram h rule) :
    s.home a = some h := by
  simp only [State.home, hs]

theorem State.writable_of_plain {s : State} {a h : Addr} (hs : s.slot a = .ram h .plain) : s.writable a = true := by
  simp only [State.writable, hs]

/-- A write to an address that names no stored byte is discarded (R63, R64). -/
theorem State.busWrite_of_home_none {s : State} {a : Addr} (h : s.home a = none) (v : Byte) : s.busWrite a v = s := by
  have hmem : busWriteAt s.cfg s.mem a v = s.mem := by
    cases hs : locate s.cfg.bus a.toNat with
    | ram k rule => exact absurd ((State.home_of_ram hs).symm.trans h) (Option.some_ne_none k)
    | rom n => simp only [busWriteAt, hs]
    | openBus => simp only [busWriteAt, hs]
  rw [State.busWrite, hmem]

/-! ### The rows of MinimalMap -/

/-- The two ranges of WRAM: the index decides the byte. -/
theorem wramIndex_eq_some_iff (a : Addr) (k : Nat) :
    wramIndex a = some k ↔
      (a.toNat < 0x002000 ∧ k = a.toNat) ∨ (0x7E0000 ≤ a.toNat ∧ a.toNat < 0x800000 ∧ a.toNat = 0x7E0000 + k) := by
  unfold wramIndex
  split
  · simp only [Option.some.injEq]; omega
  · split
    · simp only [Option.some.injEq]; omega
    · simp only [reduceCtorEq, false_iff]; omega

theorem wramIndex_eq_none_iff (a : Addr) :
    wramIndex a = none ↔ 0x002000 ≤ a.toNat ∧ (a.toNat < 0x7E0000 ∨ 0x800000 ≤ a.toNat) := by
  unfold wramIndex
  split
  · simp only [reduceCtorEq, false_iff]; omega
  · split
    · simp only [reduceCtorEq, false_iff]; omega
    · simp only [true_iff]; omega

theorem wramIndex_lt {a : Addr} {k : Nat} (h : wramIndex a = some k) : k < 0x020000 := by
  rw [wramIndex_eq_some_iff] at h
  omega

section
variable {s : State} (hbus : s.cfg.bus = minimalMap) {a : Addr}
include hbus

theorem State.slot_wram {k : Nat} (h : wramIndex a = some k) :
    s.slot a = .ram (BitVec.ofNat 24 (0x7E0000 + k)) .plain := by
  rw [wramIndex_eq_some_iff] at h
  unfold State.slot
  rw [hbus]
  rcases h with ⟨ha, rfl⟩ | ⟨hge, hlt, hk⟩
  · simp [minimalMap, locate, ha]
  · have hlow : ¬a.toNat < 0x002000 := by omega
    have hsub : a.toNat - 0x7E0000 = k := by omega
    simp [minimalMap, locate, hlow, hge, hlt, hsub]

theorem State.slot_romRange (h : 0x800000 ≤ a.toNat) : s.slot a = .rom (a.toNat % 2 ^ 23) := by
  have ha := a.isLt
  have hlow : ¬a.toNat < 0x002000 := by omega
  have hwram : ¬a.toNat < 0x800000 := by omega
  have hsub : a.toNat - 0x800000 = a.toNat % 2 ^ 23 := by omega
  unfold State.slot
  rw [hbus]
  simp [minimalMap, locate, hlow, hwram, h, ha, hsub]

theorem State.slot_unmapped (hge : 0x002000 ≤ a.toNat) (hlt : a.toNat < 0x7E0000) : s.slot a = .openBus := by
  have hlow : ¬a.toNat < 0x002000 := by omega
  have hwram : ¬0x7E0000 ≤ a.toNat := by omega
  have hrom : ¬0x800000 ≤ a.toNat := by omega
  unfold State.slot
  rw [hbus]
  simp [minimalMap, locate, hlow, hwram, hrom]

theorem State.home_wram {k : Nat} (h : wramIndex a = some k) : s.home a = some (BitVec.ofNat 24 (0x7E0000 + k)) :=
  State.home_of_ram (State.slot_wram hbus h)

/-- Outside WRAM no byte is stored. -/
theorem State.home_outside_wram (h : wramIndex a = none) : s.home a = none := by
  obtain ⟨hge, hlt | hrom⟩ := (wramIndex_eq_none_iff a).1 h
  · simp only [State.home, State.slot_unmapped hbus hge hlt]
  · simp only [State.home, State.slot_romRange hbus hrom]

/-- The stored byte of an address is that of its index in WRAM, so equal indices are equal bytes. -/
theorem State.home_eq_home_iff {k : Nat} (h : wramIndex a = some k) (b : Addr) :
    s.home b = s.home a ↔ wramIndex b = some k := by
  rw [State.home_wram hbus h]
  cases hb : wramIndex b with
  | none => simp [State.home_outside_wram hbus hb]
  | some j =>
    have hk := wramIndex_lt h
    have hj := wramIndex_lt hb
    rw [State.home_wram hbus hb, Option.some.injEq, Option.some.injEq, ← BitVec.toNat_inj, BitVec.toNat_ofNat,
      BitVec.toNat_ofNat]
    omega

/-- A write to WRAM is read at every address of its byte and nowhere else. -/
theorem State.busRead_busWrite_wram {k : Nat} (h : wramIndex a = some k) (b : Addr) (v : Byte) :
    (s.busWrite a v).busRead b = if wramIndex b = some k then v else s.busRead b := by
  rw [State.busRead_busWrite_writable (State.writable_of_plain (State.slot_wram hbus h))]
  simp only [State.home_eq_home_iff hbus h]

/-- The two addresses of a mirrored byte read alike. -/
theorem State.busRead_eq_of_wramIndex {b : Addr} {k : Nat} (ha : wramIndex a = some k) (hb : wramIndex b = some k) :
    s.busRead b = s.busRead a := by
  rw [State.busRead_of_home (State.home_wram hbus ha), State.busRead_of_home (State.home_wram hbus hb)]

theorem State.busRead_romRange (hrom : 0 < s.cfg.romSize) (h : 0x800000 ≤ a.toNat) :
    s.busRead a = Memory.read s.cfg.rom (a.toNat % 2 ^ 23 % s.cfg.romSize) := by
  rw [State.busRead_of_rom (State.slot_romRange hbus h), romByte, if_neg hrom.ne']

theorem State.busWrite_outside_wram (h : wramIndex a = none) (v : Byte) : s.busWrite a v = s :=
  State.busWrite_of_home_none (State.home_outside_wram hbus h) v

end

/-- Settles O24, row by row of R62: WRAM and its mirror, ROM, and open bus. -/
theorem minimalMapLayout : Obligations.MinimalMapLayout := by
  intro s hbus
  refine ⟨fun a b k v ha => ⟨?_, ?_⟩, fun a hrom => ⟨?_, ?_⟩, fun a hge hlt => ⟨?_, ?_⟩⟩
  · exact State.busRead_busWrite_wram hbus ha b v
  · exact State.busRead_eq_of_wramIndex hbus ha
  · exact fun hsize => State.busRead_romRange hbus hsize hrom
  · exact State.busWrite_outside_wram hbus ((wramIndex_eq_none_iff a).2 (by omega))
  · exact State.busRead_of_openBus (State.slot_unmapped hbus hge hlt)
  · exact State.busWrite_outside_wram hbus ((wramIndex_eq_none_iff a).2 (by omega))

end Sys2Proof.Machine
end

section
/-! PROOFS. A word on the stack (R72): the order of its bytes, and that a pull undoes a push. -/

namespace Sys2Proof.Machine

/-- From the state itself, `Push16` is the two stores and the stack pointer of two pushes. -/
theorem pushed_push16 (s : State) (v : Word) : Pushed s (s.push16 v) [hi v, lo v] :=
  (Pushed.nil s).push16 v

/-- Where the stack has room, `Pull16` reads back the word that `Push16` pushed. -/
theorem State.pull16_push16 {s : State} (hr : s.StackRoom 2) (v : Word) : (s.push16 v).pull16.1 = v := by
  have h := pushed_push16 s v
  have hlo : (s.push16 v).pulled 1 = lo v := h.pulled hr 1 le_rfl (Nat.le_succ 1)
  have hhi : (s.push16 v).pulled 2 = hi v := h.pulled hr 2 (Nat.le_succ 1) le_rfl
  rw [State.pull16_value, hlo, hhi, word_lo_hi]

/-- It brings SP back too. -/
theorem State.sp_pull16_push16 {s : State} (hr : s.StackRoom 2) (v : Word) : (s.push16 v).pull16.2.sp = s.sp :=
  (State.pull16_sp_after _).trans ((pushed_push16 s v).sp_back hr)

/-- Settles O28: the pushes of a word as stores, the pulls of a word, and their composition. -/
theorem stackTwoBytes : Obligations.StackTwoBytes := by
  intro s v
  obtain ⟨hstores, hsp, -, -⟩ := pushed_push16 s v
  have hpull := State.pull16_eq s
  exact ⟨rfl, rfl, hstores, hsp, s.pull16_value, congrArg Prod.snd hpull,
    fun hr => ⟨State.pull16_push16 hr v, State.sp_pull16_push16 hr v⟩⟩

end Sys2Proof.Machine
end

section
/-! PROOFS. The accumulator forms of the read-modify-writes (R220 to R226), and the pairs of them that undo each other
(R233). -/

namespace Sys2Proof.Machine

/-! ### The active width, bit by bit -/

theorem getLsbD_trunc (w : Width) (v : Word) (i : Nat) :
    (w.trunc v).getLsbD i = (decide (i < w.bits) && v.getLsbD i) := by
  rw [BitVec.getLsbD, trunc_toNat, Nat.testBit_mod_two_pow, BitVec.getLsbD]

theorem msb_trunc (w : Width) (v : Word) : w.msb (w.trunc v) = w.msb v := by
  have hlt : w.bits - 1 < w.bits := by cases w <;> decide
  simp [Width.msb, getLsbD_trunc, hlt]

/-- N and Z at a width look at the bits of that width only. -/
theorem NZof_trunc_iff (t : State) (w : Width) (v : Word) : NZof t w (w.trunc v) ↔ NZof t w v := by
  simp [NZof, msb_trunc, trunc_toNat]

/-- A carry as a word: bit 0 and no other. -/
theorem getLsbD_ofNat_toNat (b : Bool) (i : Nat) :
    (BitVec.ofNat 16 b.toNat).getLsbD i = (decide (i = 0) && b) := by
  cases b <;> simp [BitVec.getLsbD_one]

/-! ### Writing the accumulator back -/

theorem State.trunc_setAcc_a (s : State) (w : Width) (v : Word) : w.trunc (s.setAcc w v).a = w.trunc v := by
  cases w
  · simp [State.setAcc, trunc_w8]
  · rfl

/-- After a write of A at a width, writing the old value at that width gives back all of A: A.h was kept. -/
theorem State.setAcc_trunc_a {s t : State} {w : Width} {v : Word} (h : t.a = (s.setAcc w v).a) :
    (t.setAcc w (w.trunc s.a)).a = s.a := by
  cases w
  · simp [State.setAcc, h]
  · rfl

/-! ### The accumulator form (R220) -/

/-- The state after the accumulator form of a read-modify-write. -/
def accNext (i : Instr) (f : Width → Word → State → Word × State) (s : State) : State :=
  ((f s.wA (s.wA.trunc s.a) s).2.setAcc s.wA (f s.wA (s.wA.trunc s.a) s).1).tick (cost i s {})

/-- The operation writes neither A nor the flag that selects the width of A. -/
def KeepsAcc (f : Width → Word → State → Word × State) : Prop :=
  ∀ (w : Width) (v : Word) (s : State), (f w v s).2.a = s.a ∧ (f w v s).2.flag .m = s.flag .m

section
variable {i j : Instr} {f g : Width → Word → State → Word × State}

theorem accForm_eq (s : State) : accForm i f s = .next (accNext i f s) := rfl

theorem accNext_flag (s : State) (fl : Flag) :
    (accNext i f s).flag fl = (f s.wA (s.wA.trunc s.a) s).2.flag fl := rfl

theorem accNext_a (hf : KeepsAcc f) (s : State) :
    (accNext i f s).a = (s.setAcc s.wA (f s.wA (s.wA.trunc s.a) s).1).a := by
  simp only [accNext, State.tick_a, State.setAcc, (hf _ _ s).1]

theorem accNext_wA (hf : KeepsAcc f) (s : State) : (accNext i f s).wA = s.wA := by
  simp only [State.wA, accNext_flag, (hf _ _ s).2]

/-- What a second accumulator form reads is the result of the first. -/
theorem trunc_accNext_a (hf : KeepsAcc f) (s : State) :
    s.wA.trunc (accNext i f s).a = s.wA.trunc (f s.wA (s.wA.trunc s.a) s).1 := by
  rw [accNext_a hf, State.trunc_setAcc_a]

/-- If the second operation takes the result of the first back to its operand, the two instructions restore A, and A.h with
it at width 8. -/
theorem accNext_accNext_a (hf : KeepsAcc f) (hg : KeepsAcc g) {s : State}
    (h : (g s.wA (s.wA.trunc (f s.wA (s.wA.trunc s.a) s).1) (accNext i f s)).1 = s.wA.trunc s.a) :
    (accNext j g (accNext i f s)).a = s.a := by
  rw [accNext_a hg, accNext_wA hf, trunc_accNext_a hf, h]
  exact State.setAcc_trunc_a (accNext_a hf s)

theorem accNext_accNext_flag (hf : KeepsAcc f) (s : State) (fl : Flag) :
    (accNext j g (accNext i f s)).flag fl =
      (g s.wA (s.wA.trunc (f s.wA (s.wA.trunc s.a) s).1) (accNext i f s)).2.flag fl := by
  rw [accNext_flag, accNext_wA hf, trunc_accNext_a hf]

end

/-! ### The four operations of R233 -/

theorem keepsAcc_incr : KeepsAcc incr := fun w v s => ⟨rfl, by simp [incr]⟩
theorem keepsAcc_decr : KeepsAcc decr := fun w v s => ⟨rfl, by simp [decr]⟩
theorem keepsAcc_asl : KeepsAcc asl := fun w v s => ⟨rfl, by simp [asl]⟩
theorem keepsAcc_ror : KeepsAcc ror := fun w v s => ⟨rfl, by simp [ror]⟩

theorem NZof_decr (w : Width) (v : Word) (s : State) : NZof (decr w v s).2 w (decr w v s).1 := NZof_setNZ s w _

theorem asl_flag_c (w : Width) (v : Word) (s : State) : (asl w v s).2.flag .c = w.msb v := by simp [asl]

theorem ror_flag_c (w : Width) (v : Word) (s : State) : (ror w v s).2.flag .c = v.getLsbD 0 := by simp [ror]

/-- DEC takes the result of INC back to the operand, modulo the width. -/
theorem decr_incr (w : Width) (v : Word) (s t : State) :
    (decr w (w.trunc (incr w v s).1) t).1 = w.trunc v := by
  apply BitVec.eq_of_toNat_eq
  simp only [decr, incr, trunc_trunc, trunc_toNat, BitVec.toNat_sub, BitVec.toNat_add]
  cases w <;> simp only [Width.bits] <;> omega

/-- ASL shifts a 0 into bit 0. -/
theorem getLsbD_zero_asl (w : Width) (v : Word) (s : State) : (w.trunc (asl w v s).1).getLsbD 0 = false := by
  rw [asl, trunc_trunc, getLsbD_trunc, BitVec.getLsbD_shiftLeft]
  simp

/-- ROR takes the result of ASL back to the operand when the carry is the bit that ASL shifted out. -/
theorem ror_asl (w : Width) (v : Word) (s : State) {t : State} (hc : t.flag .c = w.msb v) :
    (ror w (w.trunc (asl w v s).1) t).1 = w.trunc v := by
  have hbits : 1 ≤ w.bits ∧ w.bits ≤ 16 := by cases w <;> decide
  apply BitVec.eq_of_getLsbD_eq
  intro i hi
  simp only [ror, asl, hc, trunc_trunc, Width.msb, BitVec.getLsbD_or, BitVec.getLsbD_ushiftRight,
    BitVec.getLsbD_shiftLeft, getLsbD_trunc, getLsbD_ofNat_toNat]
  obtain hlow | htop | hhigh : i + 1 < w.bits ∨ i = w.bits - 1 ∨ w.bits ≤ i := by omega
  · have hbit : 1 + i < w.bits ∧ i < w.bits - 1 ∧ i < w.bits ∧ 1 + i < 16 := by omega
    simp [hbit]
  · have hbit : ¬1 + i < w.bits ∧ i < w.bits ∧ ¬i < w.bits - 1 := by omega
    simp [hbit, hi, ← htop]
  · have hbit : ¬1 + i < w.bits ∧ ¬i < w.bits ∧ i - (w.bits - 1) ≠ 0 := by omega
    simp [hbit]

/-! ### The round trips -/

theorem incAcc_decAcc_restores (s : State) :
    (accNext .decAcc decr (accNext .incAcc incr s)).a = s.a ∧
      NZof (accNext .decAcc decr (accNext .incAcc incr s)) s.wA s.a := by
  have hr := decr_incr s.wA (s.wA.trunc s.a) s (accNext .incAcc incr s)
  rw [trunc_trunc] at hr
  refine ⟨accNext_accNext_a keepsAcc_incr keepsAcc_decr hr, ?_⟩
  have hnz := NZof_decr s.wA (s.wA.trunc (incr s.wA (s.wA.trunc s.a) s).1) (accNext .incAcc incr s)
  rw [hr, NZof_trunc_iff] at hnz
  simpa only [NZof, accNext_accNext_flag keepsAcc_incr] using hnz

theorem aslAcc_flag_c (s : State) : (accNext .aslAcc asl s).flag .c = s.wA.msb s.a := by
  rw [accNext_flag, asl_flag_c, msb_trunc]

theorem aslAcc_rorAcc_restores (s : State) :
    (accNext .rorAcc ror (accNext .aslAcc asl s)).a = s.a ∧
      (accNext .rorAcc ror (accNext .aslAcc asl s)).flag .c = false := by
  have hc : (accNext .aslAcc asl s).flag .c = s.wA.msb (s.wA.trunc s.a) := by rw [aslAcc_flag_c, msb_trunc]
  have hr := ror_asl s.wA (s.wA.trunc s.a) s hc
  rw [trunc_trunc] at hr
  refine ⟨accNext_accNext_a keepsAcc_asl keepsAcc_ror hr, ?_⟩
  rw [accNext_accNext_flag keepsAcc_asl, ror_flag_c, getLsbD_zero_asl]

/-- Settles O48: each pair is the second operation undoing the first at the active width, A.h being kept by both. -/
theorem accumulatorRoundTrips : Obligations.AccumulatorRoundTrips := by
  intro s
  obtain ⟨ha, hnz⟩ := incAcc_decAcc_restores s
  obtain ⟨ha', hc⟩ := aslAcc_rorAcc_restores s
  exact ⟨⟨_, _, accForm_eq s, accForm_eq _, ha, hnz⟩, ⟨_, _, accForm_eq s, accForm_eq _, aslAcc_flag_c s, ha', hc⟩⟩

end Sys2Proof.Machine
end

section
/-! PROOFS. The numbers of the table of R111 (30_encoding.md section 3). -/

namespace Sys2Proof.Machine

/-- The bounds of a row of the table of R111: its constant is at least 2, a width term of a memory operand counts at most
twice and any other term once, and all of them make at most 9. -/
def RowBounds (c : CycleExpr) : Prop :=
  2 ≤ c.base ∧ c.m16 ≤ 2 ∧ c.x16 ≤ 1 ∧ c.dl ≤ 1 ∧ c.px ≤ 1 ∧ c.e0 ≤ 1 ∧
    c.base + c.m16 + c.x16 + c.dl + c.px + c.t + c.tx + c.e0 ≤ 9

/-- The row of an instruction with its bounds, which are decided row by row. -/
def boundedRow (i : Instr) : { c : CycleExpr // c = cycleExpr i ∧ RowBounds c } :=
  ⟨cycleExpr i, rfl, by
    unfold RowBounds
    cases i <;>
      exact ⟨of_decide_eq_true rfl, of_decide_eq_true rfl, of_decide_eq_true rfl, of_decide_eq_true rfl,
        of_decide_eq_true rfl, of_decide_eq_true rfl, of_decide_eq_true rfl⟩⟩

theorem cycleExpr_bounds (i : Instr) : RowBounds (cycleExpr i) := by
  obtain ⟨c, rfl, hc⟩ := boundedRow i
  exact hc

end Sys2Proof.Machine
end

section
/-! PROOFS. What an operation on data keeps: the notion; the operations follow those on memory. -/

namespace Sys2Proof.Machine

/-- What an operation on data keeps, from `s` to `t`: every field but A, X, Y, SP, PC, P and memory, and of those the parts
that the invariants speak of. -/
structure Tame (s t : State) : Prop where
  frame : t = { s with a := t.a, x := t.x, y := t.y, sp := t.sp, pc := t.pc, p := t.p, mem := t.mem }
  widths : t.flag .m = s.flag .m ∧ t.flag .x = s.flag .x
  page : s.e = true → hi s.sp = 0x01 → hi t.sp = 0x01
  x_high : s.flag .x = true → hi s.x = 0x00 → hi t.x = 0x00
  y_high : s.flag .x = true → hi s.y = 0x00 → hi t.y = 0x00
  a_high : s.flag .m = true → hi t.a = hi s.a
  wf : s.mem.wf → t.mem.wf

end Sys2Proof.Machine
end

section
/-! PROOFS. Memory, operands and single bytes of stack (20_memory.md R61 to R71), and SetP (10_state.md R40). -/

namespace Sys2Proof.Machine

/-! ### SetP -/

/-- Settles O33: SetP is EnforceModeInvariants after the write of P (`enforceModes_eq`). -/
theorem setPWritesP : Obligations.SetPWritesP := fun s v =>
  ⟨State.modeInv_setP s v, State.enforceModes_eq { s with p := v }⟩

/-! ### The bus -/

section
variable {s : State} (hbus : s.cfg.bus = flatTestBus)
include hbus

/-- Under FlatTestBus every address is a read/write byte of its own (R66). -/
theorem State.slot_flatTestBus (a : Addr) : s.slot a = .ram a .plain := by
  have ha : a.toNat < 0 + 0x1000000 := by simpa using a.isLt
  show locate s.cfg.bus a.toNat = _
  rw [hbus]
  show (if 0 ≤ a.toNat ∧ a.toNat < 0 + 0x1000000 then Slot.ram (BitVec.ofNat 24 (0 + (a.toNat - 0))) .plain else .openBus) = _
  rw [if_pos ⟨Nat.zero_le _, ha⟩, Nat.zero_add, Nat.sub_zero, BitVec.ofNat_toNat, BitVec.setWidth_eq]

theorem State.sameByte_flatTestBus (a b : Addr) : s.sameByte a b ↔ b = a := by
  simp [State.sameByte, State.home_of_ram (State.slot_flatTestBus hbus _)]

end

/-- Settles O23: the read after a write on any bus (`busRead_busWrite`), and FlatTestBus by its one region. -/
theorem busReadAfterWrite : Obligations.BusReadAfterWrite := by
  intro s a b v
  refine ⟨s.busRead_busWrite a b v, fun hw => ⟨State.home_of_writable hw, State.stored_of_writable hw v⟩, rfl,
    fun hbus => ⟨?_, State.sameByte_flatTestBus hbus a b⟩⟩
  exact State.writable_of_plain (State.slot_flatTestBus hbus a)

/-! ### Operands (R67 to R69) -/

theorem State.readOp_w8 (s : State) (ea : Ea) : s.readOp ea .w8 = (s.busRead ea.addr).setWidth 16 := rfl

/-- Both wrap classes read the byte at the address and the byte at the next address of the class. -/
theorem State.readOp_w16 (s : State) (ea : Ea) :
    s.readOp ea .w16 = word (s.busRead ea.addr) (s.busRead ea.next) := by
  obtain ⟨addr, wrap⟩ := ea
  cases wrap with
  | lin => rfl
  | b0 =>
    have haddr : addr24 (addrBank addr) (addrOffset addr) = addr := addr24_parts addr
    show word (s.busRead (addr24 (addrBank addr) (addrOffset addr))) _ = _
    rw [haddr]
    rfl

theorem State.writeOp_w16 (s : State) (ea : Ea) (v : Word) :
    s.writeOp ea .w16 v = (s.busWrite ea.addr (lo v)).busWrite ea.next (hi v) := by
  obtain ⟨addr, wrap⟩ := ea
  cases wrap with
  | lin => rfl
  | b0 =>
    have haddr : addr24 (addrBank addr) (addrOffset addr) = addr := addr24_parts addr
    show (s.busWrite (addr24 (addrBank addr) (addrOffset addr)) (lo v)).busWrite _ (hi v) = _
    rw [haddr]
    rfl

/-- The next address of a linear access is one more in 24 bits (R67). -/
theorem Ea.next_toNat_lin {ea : Ea} (h : ea.wrap = .lin) : ea.next.toNat = (ea.addr.toNat + 1) % 2 ^ 24 := by
  obtain ⟨addr, wrap⟩ := ea
  subst h
  exact BitVec.toNat_add addr 1

/-- The next address of a bank-wrapped access is one more in 16 bits, in the bank (R68). -/
theorem Ea.next_toNat_b0 {ea : Ea} (h : ea.wrap = .b0) :
    ea.next.toNat = ea.addr.toNat / 65536 * 65536 + (ea.addr.toNat % 65536 + 1) % 65536 := by
  obtain ⟨addr, wrap⟩ := ea
  subst h
  show (addr24 (longBank addr) (longWord addr + 1)).toNat = _
  rw [addr24_toNat, longBank_toNat, BitVec.toNat_add, longWord_toNat]
  rfl

/-- Settles O25: words and 24-bit values from their bytes, and the two increments. -/
theorem multiByteAccess : Obligations.MultiByteAccess := by
  intro s ea
  refine ⟨?_, ?_, long_toNat _ _ _, Ea.next_toNat_lin, Ea.next_toNat_b0⟩
  · exact BitVec.toNat_setWidth_of_le (by decide)
  · rw [State.readOp_w16, word_toNat]

/-- An operand of two different read/write bytes reads back. -/
theorem State.readOp_writeOp {s : State} {ea : Ea} {w : Width} (hw : s.writable ea.addr = true)
    (hnext : w = .w16 → s.writable ea.next = true ∧ s.home ea.addr ≠ s.home ea.next) (v : Word) :
    (s.writeOp ea w v).readOp ea w = w.trunc v := by
  cases w with
  | w8 =>
    show ((s.busWrite ea.addr (lo v)).busRead ea.addr).setWidth 16 = _
    rw [State.busRead_busWrite_writable hw, if_pos rfl]
    apply word_ext <;> simp
  | w16 =>
    obtain ⟨hw', hne⟩ := hnext rfl
    have hsecond : (s.busWrite ea.addr (lo v)).writable ea.next = true := hw'
    rw [State.readOp_w16, State.writeOp_w16]
    simp [State.busRead_busWrite_writable hsecond, State.busRead_busWrite_writable hw, hne]

/-- Settles O26: a store is its bytes (`stores_writeOp`) and nothing else, and reads back. -/
theorem operandReadsBack : Obligations.OperandReadsBack := by
  intro s ea w v
  refine ⟨?_, stores_writeOp s ea w v, fun hw hnext => ?_⟩
  · cases w with
    | w8 => rfl
    | w16 =>
      rw [State.writeOp_w16]
      rfl
  · rw [State.readOp_writeOp hw hnext, trunc_toNat]

/-! ### One byte of stack (R71) -/

theorem stackWrap_toNat (e : Bool) (sp : Word) :
    (stackWrap e sp).toNat = if e then 0x0100 + sp.toNat % 256 else sp.toNat := by
  cases e
  · rfl
  · simp only [stackWrap, ↓reduceIte, word_toNat, lo_toNat]
    exact Nat.add_comm _ _

/-- Settles O27: the store of a push, and SP before and after in each mode. -/
theorem stackOneByte : Obligations.StackOneByte := by
  intro s v
  have hpush := ((Pushed.nil s).push8 v).1
  refine ⟨rfl, hpush, ?_, rfl, rfl, ?_⟩
  · rw [State.push8_sp, stackWrap_toNat, BitVec.toNat_sub]
    split <;> simp <;> omega
  · rw [State.pull8_sp, stackWrap_toNat, BitVec.toNat_add]
    split <;> simp

end Sys2Proof.Machine
end

section
/-! PROOFS. The addressing modes (40_addressing.md R132 to R146, R155, R156): the effective addresses as sums, with their wrap
classes and penalty signals. -/

namespace Sys2Proof.Machine

/-- An address of bank 0 is its offset. -/
theorem addr24_zero_toNat (a : Word) : (addr24 0x00 a).toNat = a.toNat := by
  rw [addr24_toNat]
  simp

/-- D.l is not zero (R156). -/
theorem State.dlPenalty_iff (s : State) : s.dlPenalty = true ↔ s.d.toNat % 256 ≠ 0 := by
  show decide (lo s.d ≠ 0) = true ↔ _
  rw [decide_eq_true_iff, ne_eq, ne_eq, ← BitVec.toNat_inj, lo_toNat]
  rfl

theorem State.dpOffset_toNat (s : State) (o : Byte) : (s.dpOffset o).toNat = (s.d.toNat + o.toNat) % 65536 := by
  have := o.isLt
  show (s.d + o.setWidth 16).toNat = _
  rw [BitVec.toNat_add, BitVec.toNat_setWidth]
  omega

theorem State.dpOffset_add_toNat (s : State) (o : Byte) (v : Word) :
    (s.dpOffset o + v).toNat = (s.d.toNat + o.toNat + v.toNat) % 65536 := by
  rw [BitVec.toNat_add, State.dpOffset_toNat]
  omega

theorem State.srOffset_toNat (s : State) (o : Byte) : (s.srOffset o).toNat = (s.sp.toNat + o.toNat) % 65536 := by
  have := o.isLt
  show (s.sp + o.setWidth 16).toNat = _
  rw [BitVec.toNat_add, BitVec.toNat_setWidth]
  omega

/-- An index is added in 24 bits (R133). -/
theorem add_index_toNat (a : Addr) (v : Word) : (a + v.setWidth 24).toNat = (a.toNat + v.toNat) % 2 ^ 24 := by
  have := v.isLt
  rw [BitVec.toNat_add, BitVec.toNat_setWidth]
  omega

theorem State.dbIndexed_toNat (s : State) (a v : Word) :
    (s.dbIndexed a v).toNat = (s.db.toNat * 65536 + a.toNat + v.toNat) % 2 ^ 24 :=
  (add_index_toNat (addr24 s.db a) v).trans (by rw [addr24_toNat])

/-- The crossing signal is that of the low byte and the whole index (R155). -/
theorem pageCross_iff (a v : Word) : pageCross a v = true ↔ 0x100 ≤ a.toNat % 256 + v.toNat := decide_eq_true_iff

/-- So the untruncated sum is in another page. -/
theorem pageCross_iff_page (a v : Word) : pageCross a v = true ↔ (a.toNat + v.toNat) / 256 ≠ a.toNat / 256 := by
  rw [pageCross_iff]
  omega

/-- Settles O29: sums of the offsets, in bank 0. -/
theorem bankZeroAddresses : Obligations.BankZeroAddresses := by
  intro s o
  refine ⟨?_, ?_, ?_, ?_, ?_, rfl, rfl, rfl⟩
  · exact (addr24_zero_toNat _).trans (s.dpOffset_toNat o)
  · exact (addr24_zero_toNat _).trans (s.dpOffset_add_toNat o s.x)
  · exact (addr24_zero_toNat _).trans (s.dpOffset_add_toNat o s.y)
  · exact (addr24_zero_toNat _).trans (s.srOffset_toNat o)
  · simp only [List.forall_mem_cons]
    have h := s.dlPenalty_iff
    exact ⟨⟨rfl, rfl, h⟩, ⟨rfl, rfl, h⟩, ⟨rfl, rfl, h⟩, nofun⟩

/-- Settles O30: sums in 24 bits. -/
theorem absoluteAddresses : Obligations.AbsoluteAddresses := by
  intro s a l
  refine ⟨addr24_toNat s.db a, s.dbIndexed_toNat a s.x, s.dbIndexed_toNat a s.y, rfl, add_index_toNat l s.x, ?_,
    pageCross_iff a s.x, pageCross_iff_page a s.y, rfl, rfl, rfl⟩
  simp only [List.forall_mem_cons]
  exact ⟨⟨rfl, rfl⟩, ⟨rfl, rfl⟩, ⟨rfl, rfl⟩, ⟨rfl, rfl⟩, ⟨rfl, rfl⟩, nofun⟩

/-- Settles O31: the pointers are read at the offsets of O29, and Y is added as in O30. -/
theorem indirectAddresses : Obligations.IndirectAddresses := by
  intro s o p q r hp hq hr
  obtain rfl : s.dpOffset o = p := BitVec.eq_of_toNat_eq ((s.dpOffset_toNat o).trans hp.symm)
  obtain rfl : s.dpOffset o + s.x = q := BitVec.eq_of_toNat_eq ((s.dpOffset_add_toNat o s.x).trans hq.symm)
  obtain rfl : s.srOffset o = r := BitVec.eq_of_toNat_eq ((s.srOffset_toNat o).trans hr.symm)
  refine ⟨rfl, rfl, rfl, s.dbIndexed_toNat _ s.y, add_index_toNat _ s.y, s.dbIndexed_toNat _ s.y, ?_, pageCross_iff _ s.y,
    rfl, rfl, rfl, rfl, rfl, rfl, rfl⟩
  simp only [List.forall_mem_cons]
  have h := s.dlPenalty_iff
  exact ⟨⟨rfl, h⟩, ⟨rfl, h⟩, ⟨rfl, h⟩, ⟨rfl, h⟩, ⟨rfl, h⟩, nofun⟩

end Sys2Proof.Machine
end

section
/-! PROOFS. The encoder and the decoder undo each other (30_encoding.md R100 to R105), and what an instruction's length depends
on (R103, R109). -/

namespace Sys2Proof

section
open Laws.TableRow

/-- Family TableRow, for any instruction: the lemma of its constructor. -/
theorem tableRow_statement (i : Instr) : Statement i :=
  @Instr.rec Statement
    ldaDpXInd ldaSr ldaDp ldaDpIndLong ldaImm ldaAbs ldaLong ldaDpIndY ldaDpInd ldaSrIndY ldaDpX ldaDpIndLongY ldaAbsY
    ldaAbsX ldaLongX ldxImm ldxDp ldxAbs ldxDpY ldxAbsY ldyImm ldyDp ldyAbs ldyDpX ldyAbsX staDpXInd staSr staDp
    staDpIndLong staAbs staLong staDpIndY staDpInd staSrIndY staDpX staDpIndLongY staAbsY staAbsX staLongX stxDp stxAbs
    stxDpY styDp styAbs styDpX stzDp stzDpX stzAbs stzAbsX adcDpXInd adcSr adcDp adcDpIndLong adcImm adcAbs adcLong
    adcDpIndY adcDpInd adcSrIndY adcDpX adcDpIndLongY adcAbsY adcAbsX adcLongX sbcDpXInd sbcSr sbcDp sbcDpIndLong sbcImm
    sbcAbs sbcLong sbcDpIndY sbcDpInd sbcSrIndY sbcDpX sbcDpIndLongY sbcAbsY sbcAbsX sbcLongX andDpXInd andSr andDp
    andDpIndLong andImm andAbs andLong andDpIndY andDpInd andSrIndY andDpX andDpIndLongY andAbsY andAbsX andLongX
    oraDpXInd oraSr oraDp oraDpIndLong oraImm oraAbs oraLong oraDpIndY oraDpInd oraSrIndY oraDpX oraDpIndLongY oraAbsY
    oraAbsX oraLongX eorDpXInd eorSr eorDp eorDpIndLong eorImm eorAbs eorLong eorDpIndY eorDpInd eorSrIndY eorDpX
    eorDpIndLongY eorAbsY eorAbsX eorLongX cmpDpXInd cmpSr cmpDp cmpDpIndLong cmpImm cmpAbs cmpLong cmpDpIndY cmpDpInd
    cmpSrIndY cmpDpX cmpDpIndLongY cmpAbsY cmpAbsX cmpLongX cpxImm cpxDp cpxAbs cpyImm cpyDp cpyAbs bitDp bitAbs bitDpX
    bitAbsX bitImm aslDp aslAcc aslAbs aslDpX aslAbsX lsrDp lsrAcc lsrAbs lsrDpX lsrAbsX rolDp rolAcc rolAbs rolDpX
    rolAbsX rorDp rorAcc rorAbs rorDpX rorAbsX incAcc incDp incAbs incDpX incAbsX decAcc decDp decAbs decDpX decAbsX inx
    iny dex dey trbDp trbAbs tsbDp tsbAbs bcc bcs beq bmi bne bpl bvc bvs bra brl jmpAbs jmpAbsInd jmpAbsXInd jmlLong
    jmlAbsIndLong jsrAbs jsrAbsXInd jsl rts rtl rti brk cop mvn mvp nop wdm wai stp pha phx phy php phb phd phk pla plx
    ply plp plb pld pea pei per rep sep clc cld cli clv sec sed sei tax tay txa tya txy tyx tsx txs tcd tdc tcs tsc xba
    xce i

end

/-- The opcode map has a cell at an instruction's opcode that makes the instruction from its operand. -/
theorem exists_row_make (i : Instr) : ∃ row, opcodeTable[i.opcode.toNat]? = some row ∧ row.make i.operand = some i :=
  Option.bind_eq_some_iff.1 (tableRow_statement i)

theorem encode_append (m8 x8 : Bool) (i : Instr) (rest : List Byte) :
    encode m8 x8 i ++ rest = i.opcode :: (i.operand.bytes m8 x8 ++ rest) := rfl

/-- Settles O2: the cell at the instruction's opcode reads back the operand bytes that the encoder writes. -/
theorem decodeOfEncode : Obligations.DecodeOfEncode := by
  intro m8 x8 i rest hwf
  obtain ⟨row, hrow, hmake⟩ := exists_row_make i
  have hread : row.read m8 x8 (i.operand.bytes m8 x8 ++ rest) = some (i, rest) := Row.read_bytes rest hmake hwf
  simp only [encode_append, decode, hrow, hread]

/-- Settles O3: the cell that reads the operand bytes is sound (`decode_sound`); no bytes do not decode. -/
theorem encodeOfDecode : Obligations.EncodeOfDecode := by
  intro m8 x8 bytes rest i hdecode
  cases bytes with
  | nil => exact nomatch hdecode
  | cons op tail =>
    obtain ⟨hop, hwf, htail⟩ := decode_sound hdecode
    subst hop htail
    refine ⟨hwf, rfl, ?_⟩
    rw [List.length_cons, List.length_append, Nat.add_right_comm, Nat.add_comm _ 1]
    rfl

/-- Settles O1: each word is the encoding of the instruction it stands for (`decodeOfEncode`). -/
theorem documentedWordsDecode : Obligations.DocumentedWordsDecode :=
  ⟨decodeOfEncode true true (.ldaImm 0x0000) [] rfl, decodeOfEncode false true (.ldaImm 0x1234) [] rfl,
    decodeOfEncode true true (.adcImm 0x0001) [] rfl, decodeOfEncode true true (.beq 0x20) [] rfl,
    decodeOfEncode true true (.jsrAbs 0x1234) [] rfl, decodeOfEncode true true .rts [] rfl,
    decodeOfEncode true true (.rep 0x30) [0xA9] rfl, decodeOfEncode true true (.ldaImm 0x0034) [0x12] rfl⟩

/-- Settles O4: any four bytes decode (`decode_four`), to an instruction whose operand bytes are among the last three; only an
immediate has bytes of its own for each width. -/
theorem everyOpcodeDecodes : Obligations.EveryOpcodeDecodes := by
  intro op b c d m8 x8
  obtain ⟨⟨i, rest⟩, hdecode, -⟩ := decode_four m8 x8 op b c d
  obtain ⟨hop, -, hbytes⟩ := decode_sound hdecode
  have hlen : (i.operand.bytes m8 x8).length + rest.length = 3 := by
    rw [← List.length_append, hbytes]; rfl
  have hlength : i.length m8 x8 = 1 + (i.operand.bytes m8 x8).length := rfl
  refine ⟨i, rest, hdecode, hop, by omega, by omega, ?_⟩
  · show 1 + (i.operand.bytes m8 x8).length = 1 + (i.operand.bytes true true).length + _
    cases i.operand with
    | immM v => cases m8 <;> rfl
    | immX v => cases x8 <;> rfl
    | none | byte | word | long | banks => rfl

end Sys2Proof
end

section
/-! PROOFS. What the operations on data leave alone: the control state (R24, R25, R35 to R38), the width selectors, the mode
invariants (R41), A.h at width 8 (R20) and the canonical form of memory. -/

namespace Sys2Proof.Machine

theorem State.wX_eq_w8 {s : State} (hx : s.flag .x = true) : s.wX = .w8 := if_pos hx

theorem State.wA_eq_w8 {s : State} (hm : s.flag .m = true) : s.wA = .w8 := if_pos hm

namespace Tame
variable {s t : State}

theorem refl (s : State) : Tame s s :=
  ⟨rfl, ⟨rfl, rfl⟩, fun _ h => h, fun _ h => h, fun _ h => h, fun _ => rfl, fun h => h⟩

/-- So the control state is kept, field by field. -/
theorem control (h : Tame s t) : t.pb = s.pb ∧ t.db = s.db ∧ t.d = s.d ∧ t.e = s.e ∧ t.stopped = s.stopped ∧
    t.waiting = s.waiting ∧ t.irqPending = s.irqPending ∧ t.nmiPending = s.nmiPending ∧ t.cycles = s.cycles ∧
    t.diag = s.diag ∧ t.cfg = s.cfg := by
  rw [h.frame]
  exact ⟨rfl, rfl, rfl, rfl, rfl, rfl, rfl, rfl, rfl, rfl, rfl⟩

theorem cycles (h : Tame s t) : t.cycles = s.cycles := by rw [h.frame]

theorem e (h : Tame s t) : t.e = s.e := by rw [h.frame]

/-- So the mode invariants are kept. -/
theorem modeInv (h : Tame s t) (hs : s.ModeInv) : t.ModeInv := by
  have he' := h.e
  obtain ⟨-, ⟨hm, hx⟩, hpage, hxr, hyr, -, -⟩ := h
  obtain ⟨hemu, hidx⟩ := hs
  refine ⟨fun he => ?_, fun hx8 => ?_⟩
  · rw [he'] at he
    obtain ⟨hms, hxs, hsp⟩ := hemu he
    exact ⟨hm.trans hms, hx.trans hxs, hpage he hsp⟩
  · rw [hx] at hx8
    obtain ⟨hxs, hys⟩ := hidx hx8
    exact ⟨hxr hx8 hxs, hyr hx8 hys⟩

/-! ### One write more -/

theorem putFlag (h : Tame s t) {f : Flag} (hm : Flag.m ≠ f) (hx : Flag.x ≠ f) (b : Bool) : Tame s (t.putFlag f b) := by
  obtain ⟨hframe, ⟨hfm, hfx⟩, hpage, hxr, hyr, ha, hwf⟩ := h
  refine ⟨?_, ⟨?_, ?_⟩, hpage, hxr, hyr, ha, hwf⟩
  · rw [hframe]; rfl
  · rw [State.flag_putFlag, if_neg hm, hfm]
  · rw [State.flag_putFlag, if_neg hx, hfx]

theorem setNZ (h : Tame s t) (w : Width) (v : Word) : Tame s (t.setNZ w v) :=
  (h.putFlag (f := .n) (by decide) (by decide) _).putFlag (f := .z) (by decide) (by decide) _

theorem compare (h : Tame s t) (w : Width) (r m : Word) : Tame s (t.compare w r m) :=
  (h.putFlag (f := .c) (by decide) (by decide) _).setNZ w _

/-- A write of A at the active width keeps A.h at width 8 (R20). -/
theorem setAcc (h : Tame s t) (v : Word) : Tame s (t.setAcc s.wA v) := by
  obtain ⟨hframe, hflags, hpage, hx, hy, ha, hwf⟩ := h
  refine ⟨?_, hflags, hpage, hx, hy, fun hm => ?_, hwf⟩
  · rw [hframe]; rfl
  · simp [State.setAcc, State.wA_eq_w8 hm, ha hm]

/-- Writes of X, Y, SP and PC that meet what the mode says of them. -/
theorem withRegs (h : Tame s t) {x y sp : Word} (pc : Word) (hx : s.flag .x = true → hi s.x = 0x00 → hi x = 0x00)
    (hy : s.flag .x = true → hi s.y = 0x00 → hi y = 0x00) (hsp : s.e = true → hi s.sp = 0x01 → hi sp = 0x01) :
    Tame s { t with x := x, y := y, sp := sp, pc := pc } := by
  obtain ⟨hframe, hflags, -, -, -, ha, hwf⟩ := h
  exact ⟨by rw [hframe], hflags, hsp, hx, hy, ha, hwf⟩

theorem withX (h : Tame s t) {v : Word} (hv : s.flag .x = true → hi v = 0x00) : Tame s { t with x := v } :=
  h.withRegs t.pc (fun hx _ => hv hx) h.y_high h.page

theorem withY (h : Tame s t) {v : Word} (hv : s.flag .x = true → hi v = 0x00) : Tame s { t with y := v } :=
  h.withRegs t.pc h.x_high (fun hx _ => hv hx) h.page

theorem withPC (h : Tame s t) (v : Word) : Tame s { t with pc := v } :=
  h.withRegs v h.x_high h.y_high h.page

/-- SP is kept in page 1 by every write of it in emulation mode (R71). -/
theorem withSP (h : Tame s t) (v : Word) : Tame s { t with sp := stackWrap s.e v } :=
  h.withRegs t.pc h.x_high h.y_high fun he _ => by simp [he]

theorem busWrite (h : Tame s t) (a : Addr) (v : Byte) : Tame s (t.busWrite a v) := by
  obtain ⟨hframe, hflags, hpage, hx, hy, ha, hwf⟩ := h
  exact ⟨by rw [hframe]; rfl, hflags, hpage, hx, hy, ha, fun hs => State.busWrite_wf (hwf hs) a v⟩

theorem writeOp (h : Tame s t) (ea : Ea) (w : Width) (v : Word) : Tame s (t.writeOp ea w v) := by
  cases w with
  | w8 => exact h.busWrite _ _
  | w16 =>
    rw [State.writeOp_w16]
    exact (h.busWrite _ _).busWrite _ _

theorem push8 (h : Tame s t) (v : Byte) : Tame s (t.push8 v) := by
  have := (h.busWrite (addr24 0x00 t.sp) v).withSP (t.sp - 1)
  rwa [← h.e] at this

theorem push16 (h : Tame s t) (v : Word) : Tame s (t.push16 v) := (h.push8 _).push8 _

theorem pushW (h : Tame s t) (w : Width) (v : Word) : Tame s (t.pushW w v) := by
  cases w
  · exact h.push8 _
  · exact h.push16 _

theorem pull8 (h : Tame s t) : Tame s t.pull8.2 := by
  have := h.withSP (t.sp + 1)
  rwa [← h.e] at this

theorem pull16 (h : Tame s t) : Tame s t.pull16.2 := h.pull8.pull8

theorem pullW (h : Tame s t) (w : Width) : Tame s (t.pullW w).2 := by
  cases w
  · exact h.pull8
  · exact h.pull16

end Tame

end Sys2Proof.Machine
end

section
/-! PROOFS. Everything an instruction can do to the state, said once for the 256 of them (30_encoding.md R105): the
invariants, the writers of the control state and the cycles are read off it. -/

namespace Sys2Proof.Machine

/-! ### At an 8-bit index width, what is written to an index register has no high byte -/

theorem hi_trunc_wX (s : State) (v : Word) : s.flag .x = true → hi (s.wX.trunc v) = 0x00 := fun hx => by
  simp [State.wX_eq_w8 hx]

theorem hi_readOp_wX (s : State) (ea : Ea) : s.flag .x = true → hi (s.readOp ea s.wX) = 0x00 := fun hx => by
  simp [State.wX_eq_w8 hx, State.readOp_w8]

theorem hi_pullW_w8 (s : State) : hi (s.pullW .w8).1 = 0x00 := hi_setWidth s.pull8.1

theorem hi_pullW_wX (s : State) : s.flag .x = true → hi (s.pullW s.wX).1 = 0x00 := fun hx => by
  rw [State.wX_eq_w8 hx, hi_pullW_w8]

/-- PLA at width 8 clears A.h (R298). -/
theorem hi_pullW_wA (s : State) : s.flag .m = true → hi (s.pullW s.wA).1 = 0x00 := fun hm => by
  rw [State.wA_eq_w8 hm, hi_pullW_w8]

/-! ### The operations on data -/

section
variable (s : State)

theorem tame_loadA (m : Word) : Tame s (loadA m s) := ((Tame.refl s).setAcc m).setNZ _ _

theorem tame_loadX {m : Word} (hm : s.flag .x = true → hi m = 0x00) : Tame s (loadX m s) :=
  ((Tame.refl s).withX hm).setNZ _ _

theorem tame_loadY {m : Word} (hm : s.flag .x = true → hi m = 0x00) : Tame s (loadY m s) :=
  ((Tame.refl s).withY hm).setNZ _ _

theorem tame_setX (v : Word) : Tame s (s.setX s.wX v) := tame_loadX s (hi_trunc_wX s v)

theorem tame_setY (v : Word) : Tame s (s.setY s.wX v) := tame_loadY s (hi_trunc_wX s v)

theorem tame_setSum (o : AluOut) : Tame s (s.setSum s.wA o) :=
  ((((Tame.refl s).setAcc o.r).putFlag (f := .c) (by decide) (by decide) _).putFlag (f := .v) (by decide) (by decide) _).setNZ _ _

theorem tame_logicA (op : Word → Word → Word) (m : Word) : Tame s (logicA op m s) := ((Tame.refl s).setAcc _).setNZ _ _

theorem tame_bitImmA (m : Word) : Tame s (bitImmA m s) := (Tame.refl s).putFlag (f := .z) (by decide) (by decide) _

theorem tame_bitMemA (m : Word) : Tame s (bitMemA m s) :=
  ((tame_bitImmA s m).putFlag (f := .n) (by decide) (by decide) _).putFlag (f := .v) (by decide) (by decide) _

/-- The shifts and rotates write C, N and Z. -/
theorem tame_putFlag_setNZ (c : Bool) (w : Width) (r : Word) : Tame s ((s.putFlag .c c).setNZ w r) :=
  ((Tame.refl s).putFlag (f := .c) (by decide) (by decide) c).setNZ w r

/-- One step of a block move but for A and DB. -/
theorem tame_blockStep (b : Addr) (v : Byte) (x y pc : Word) :
    Tame s { s.busWrite b v with x := s.wX.trunc x, y := s.wX.trunc y, pc := pc } :=
  (((Tame.refl s).busWrite b v).withX (hi_trunc_wX s x)).withY (hi_trunc_wX s y) |>.withPC pc

end

/-! ### Every instruction -/

/-- One register of the control state, or all of A, is written too, by the instructions that do (R20, R24, R25, R36). -/
def WritesOne (i : Instr) (u t : State) : Prop :=
  (((∃ a, i = .jmlLong a) ∨ (∃ a, i = .jmlAbsIndLong a) ∨ (∃ a, i = .jsl a) ∨ i = .rtl) ∧ ∃ b, t = { u with pb := b }) ∨
  (i = .plb ∧ ∃ b, t = { u with db := b }) ∨
  (((∃ x y, i = .mvn x y) ∨ ∃ x y, i = .mvp x y) ∧ ∃ v b, t = { u with a := v, db := b }) ∨
  ((i = .tcd ∨ i = .pld) ∧ ∃ v, t = { u with d := v }) ∨
  ((i = .pla ∨ i = .xba ∨ i = .tdc ∨ i = .tsc) ∧ ∃ v, t = { u with a := v }) ∨
  (i = .wai ∧ t = { u with waiting := true }) ∨
  (i = .stp ∧ t = { u with stopped := true })

/-- What instruction `i` can make of `s`, the cycles left aside: an operation on data, and one register of the control state
with it; P written as a byte; the exchange of C and E; RTI, which writes PB in native mode only; or a trap entry. -/
def Effect (s : State) (i : Instr) (t : State) : Prop :=
  Tame s t ∨
  (∃ u, Tame s u ∧ WritesOne i u t) ∨
  (∃ u v, Tame s u ∧ t = u.setP v) ∨
  (i = .xce ∧ t = ({ s.putFlag .c s.e with e := s.flag .c } : State).enforceModes) ∨
  (i = .rti ∧ ∃ u v b, Tame (s.pull8.2.setP v) u ∧ u.a = s.a ∧ (s.e = true → b = s.pb) ∧ t = { u with pb := b }) ∨
  (((∃ b, i = .brk b) ∨ ∃ b, i = .cop b) ∧ ∃ ev, t = { s.trapEntry ev with cycles := s.cycles })

namespace Effect
variable {s t : State} {i : Instr}

theorem tame (h : Tame s t) : Effect s i t := .inl h

theorem status (h : Tame s t) (v : Byte) : Effect s i (t.setP v) := .inr (.inr (.inl ⟨t, v, h, rfl⟩))

theorem bank (hi : (∃ a, i = .jmlLong a) ∨ (∃ a, i = .jmlAbsIndLong a) ∨ (∃ a, i = .jsl a) ∨ i = .rtl)
    (h : Tame s t) (b : Byte) : Effect s i { t with pb := b } := .inr (.inl ⟨t, h, .inl ⟨hi, b, rfl⟩⟩)

theorem plb (h : Tame s t) (b : Byte) : Effect s .plb { t with db := b } :=
  .inr (.inl ⟨t, h, .inr (.inl ⟨rfl, b, rfl⟩)⟩)

theorem block (hi : (∃ x y, i = .mvn x y) ∨ ∃ x y, i = .mvp x y) (h : Tame s t) (v : Word) (b : Byte) :
    Effect s i { t with a := v, db := b } := .inr (.inl ⟨t, h, .inr (.inr (.inl ⟨hi, v, b, rfl⟩))⟩)

theorem direct (hi : i = .tcd ∨ i = .pld) (h : Tame s t) (v : Word) : Effect s i { t with d := v } :=
  .inr (.inl ⟨t, h, .inr (.inr (.inr (.inl ⟨hi, v, rfl⟩)))⟩)

theorem acc (hi : i = .pla ∨ i = .xba ∨ i = .tdc ∨ i = .tsc) (h : Tame s t) (v : Word) :
    Effect s i { t with a := v } := .inr (.inl ⟨t, h, .inr (.inr (.inr (.inr (.inl ⟨hi, v, rfl⟩))))⟩)

theorem wai (s : State) : Effect s .wai { s with waiting := true } :=
  .inr (.inl ⟨s, .refl s, .inr (.inr (.inr (.inr (.inr (.inl ⟨rfl, rfl⟩)))))⟩)

theorem stp (s : State) : Effect s .stp { s with stopped := true } :=
  .inr (.inl ⟨s, .refl s, .inr (.inr (.inr (.inr (.inr (.inr ⟨rfl, rfl⟩)))))⟩)

theorem xce (s : State) : Effect s .xce s.exchangeCE := .inr (.inr (.inr (.inl ⟨rfl, rfl⟩)))

theorem rti {v b : Byte} (h : Tame (s.pull8.2.setP v) t) (ha : t.a = s.a) (hb : s.e = true → b = s.pb) :
    Effect s .rti { t with pb := b } := .inr (.inr (.inr (.inr (.inl ⟨rfl, t, v, b, h, ha, hb, rfl⟩))))

theorem trap (hi : (∃ b, i = .brk b) ∨ ∃ b, i = .cop b) (ev : TrapEvent) :
    Effect s i { s.trapEntry ev with cycles := s.cycles } := .inr (.inr (.inr (.inr (.inr ⟨hi, ev, rfl⟩))))

end Effect

/-- RTI pulls PB in native mode only. -/
theorem effect_rti (s : State) : Effect s .rti s.returnFromInterrupt := by
  have h := ((Tame.refl (s.pull8.2.setP s.pull8.1)).pull16).withPC (s.pull8.2.setP s.pull8.1).pull16.1
  unfold State.returnFromInterrupt
  by_cases he : s.e = true
  · simp only [he, ↓reduceIte]
    exact .rti h (by simp) (fun _ => by simp)
  · simp only [he]
    exact .rti h.pull8 (by simp) (fun he' => absurd he' he)

/-- The frame of an entry (R405). -/
theorem tame_pushFrame (s : State) (ev : TrapEvent) : Tame s (s.pushFrame ev) := by
  unfold State.pushFrame
  split
  · exact ((Tame.refl s).push16 _).push8 _
  · exact (((Tame.refl s).push8 _).push16 _).push8 _

/-- N and Z of a pull of DB or D are the parameter's matter (R302, R303). -/
theorem Tame.setPulledNZ {s t : State} (h : Tame s t) (w : Width) (v : Word) : Tame s (t.setPulledNZ w v) := by
  unfold State.setPulledNZ
  split
  · exact h.setNZ w v
  · exact h

theorem State.setPulledNZ_with_db (s : State) (b : Byte) (w : Width) (v : Word) :
    ({ s with db := b } : State).setPulledNZ w v = { s.setPulledNZ w v with db := b } := by
  unfold State.setPulledNZ
  split <;> rfl

theorem State.setPulledNZ_with_d (s : State) (d : Word) (w : Width) (v : Word) :
    ({ s with d := d } : State).setPulledNZ w v = { s.setPulledNZ w v with d := d } := by
  unfold State.setPulledNZ
  split <;> rfl

theorem effect_plb (s : State) : Effect s .plb s.pullDB := by
  show Effect s .plb (({ s.pull8.2 with db := s.pull8.1 } : State).setPulledNZ .w8 (s.pull8.1.setWidth 16))
  rw [State.setPulledNZ_with_db]
  exact .plb ((Tame.refl s).pull8.setPulledNZ _ _) _

theorem effect_pld (s : State) : Effect s .pld s.pullD := by
  show Effect s .pld (({ s.pull16.2 with d := s.pull16.1 } : State).setPulledNZ .w16 s.pull16.1)
  rw [State.setPulledNZ_with_d]
  exact .direct (.inr rfl) ((Tame.refl s).pull16.setPulledNZ _ _) _

theorem effect_jumpLong {s t : State} {i : Instr} (a : Addr)
    (hi : (∃ a, i = .jmlLong a) ∨ (∃ a, i = .jmlAbsIndLong a) ∨ (∃ a, i = .jsl a) ∨ i = .rtl) (h : Tame s t) :
    Effect s i (t.jumpLong a) := .bank hi (h.withPC (longWord a)) (longBank a)

theorem effect_rtl (s : State) : Effect s .rtl s.returnLong :=
  .bank (.inr (.inr (.inr rfl))) ((Tame.refl s).pull16.withPC _).pull8 _

theorem effect_blockMove {i : Instr} (s : State) (step : Word) (dst src : Byte)
    (hi : (∃ x y, i = .mvn x y) ∨ ∃ x y, i = .mvp x y) : Effect s i (s.blockMove step dst src) :=
  .block hi (tame_blockStep s _ _ _ _ _) _ dst

theorem effect_setAcc16 {i : Instr} (s : State) (v : Word) (hi : i = .tdc ∨ i = .tsc) :
    Effect s i (s.setAcc16 v) := .acc (.inr (.inr hi)) ((Tame.refl s).setNZ .w16 v) v

theorem effect_xba (s : State) : Effect s .xba s.swapAcc := .acc (.inr (.inl rfl)) ((Tame.refl s).setNZ .w8 _) _

theorem effect_tcd (s : State) : Effect s .tcd ({ s with d := s.a }.setNZ .w16 s.a) :=
  .direct (.inl rfl) ((Tame.refl s).setNZ .w16 s.a) s.a

theorem effect_pla (s : State) : Effect s .pla s.pullA :=
  .acc (.inl rfl) (((Tame.refl s).pullW s.wA).setNZ s.wA _) _

/-- What one instruction does, as a claim about its outcome: it completes with its row of BaseCycles added (R37, R110) and one of
the effects. -/
def Completes (s : State) (i : Instr) (o : Out) : Prop :=
  ∃ (t : State) (pen : Penalty), o = .next (t.tick (cost i s pen)) ∧ Effect s i t

theorem Completes.of_finish {s t : State} {i : Instr} {pen : Penalty} {o : Out} (ho : o = finish i s t pen)
    (heff : Effect s i t) : Completes s i o := ⟨t, pen, ho, heff⟩

theorem completes_branchForm (i : Instr) (c : Bool) (d : Byte) (s : State) : Completes s i (branchForm i c d s) :=
  ⟨_, _, branchForm_eq i c d s, .tame ((Tame.refl s).withPC _)⟩

theorem completes_trapEntry {i : Instr} (s : State) (ev : TrapEvent) (hi : (∃ b, i = .brk b) ∨ ∃ b, i = .cop b)
    (hcost : s.entryCost ev = cost i s) : Completes s i (.next (s.trapEntry ev)) :=
  .of_finish (by rw [finish, ← hcost]; rfl) (.trap hi ev)

/-- Every instruction completes, with one of the effects. -/
theorem exec_completes (i : Instr) (s : State) : Completes s i (exec i s) :=
  match i with
  | .ldaDpXInd _ | .ldaSr _ | .ldaDp _ | .ldaDpIndLong _ | .ldaImm _ | .ldaAbs _ | .ldaLong _ | .ldaDpIndY _ | .ldaDpInd _
  | .ldaSrIndY _ | .ldaDpX _ | .ldaDpIndLongY _ | .ldaAbsY _ | .ldaAbsX _ | .ldaLongX _ =>
    .of_finish rfl (.tame (tame_loadA s _))
  | .ldxImm _ => .of_finish rfl (.tame (tame_loadX s (hi_trunc_wX s _)))
  | .ldxDp _ | .ldxAbs _ | .ldxDpY _ | .ldxAbsY _ => .of_finish rfl (.tame (tame_loadX s (hi_readOp_wX s _)))
  | .ldyImm _ => .of_finish rfl (.tame (tame_loadY s (hi_trunc_wX s _)))
  | .ldyDp _ | .ldyAbs _ | .ldyDpX _ | .ldyAbsX _ => .of_finish rfl (.tame (tame_loadY s (hi_readOp_wX s _)))
  | .staDpXInd _ | .staSr _ | .staDp _ | .staDpIndLong _ | .staAbs _ | .staLong _ | .staDpIndY _ | .staDpInd _ | .staSrIndY _
  | .staDpX _ | .staDpIndLongY _ | .staAbsY _ | .staAbsX _ | .staLongX _ | .stxDp _ | .stxAbs _ | .stxDpY _ | .styDp _ | .styAbs _
  | .styDpX _ | .stzDp _ | .stzDpX _ | .stzAbs _ | .stzAbsX _ =>
    .of_finish rfl (.tame ((Tame.refl s).writeOp _ _ _))
  | .adcDpXInd _ | .adcSr _ | .adcDp _ | .adcDpIndLong _ | .adcImm _ | .adcAbs _ | .adcLong _ | .adcDpIndY _ | .adcDpInd _
  | .adcSrIndY _ | .adcDpX _ | .adcDpIndLongY _ | .adcAbsY _ | .adcAbsX _ | .adcLongX _ | .sbcDpXInd _ | .sbcSr _ | .sbcDp _
  | .sbcDpIndLong _ | .sbcImm _ | .sbcAbs _ | .sbcLong _ | .sbcDpIndY _ | .sbcDpInd _ | .sbcSrIndY _ | .sbcDpX _ | .sbcDpIndLongY _
  | .sbcAbsY _ | .sbcAbsX _ | .sbcLongX _ =>
    .of_finish rfl (.tame (tame_setSum s _))
  | .andDpXInd _ | .andSr _ | .andDp _ | .andDpIndLong _ | .andImm _ | .andAbs _ | .andLong _ | .andDpIndY _ | .andDpInd _
  | .andSrIndY _ | .andDpX _ | .andDpIndLongY _ | .andAbsY _ | .andAbsX _ | .andLongX _ | .oraDpXInd _ | .oraSr _ | .oraDp _
  | .oraDpIndLong _ | .oraImm _ | .oraAbs _ | .oraLong _ | .oraDpIndY _ | .oraDpInd _ | .oraSrIndY _ | .oraDpX _ | .oraDpIndLongY _
  | .oraAbsY _ | .oraAbsX _ | .oraLongX _ | .eorDpXInd _ | .eorSr _ | .eorDp _ | .eorDpIndLong _ | .eorImm _ | .eorAbs _
  | .eorLong _ | .eorDpIndY _ | .eorDpInd _ | .eorSrIndY _ | .eorDpX _ | .eorDpIndLongY _ | .eorAbsY _ | .eorAbsX _ | .eorLongX _ =>
    .of_finish rfl (.tame (tame_logicA s _ _))
  | .cmpDpXInd _ | .cmpSr _ | .cmpDp _ | .cmpDpIndLong _ | .cmpImm _ | .cmpAbs _ | .cmpLong _ | .cmpDpIndY _ | .cmpDpInd _
  | .cmpSrIndY _ | .cmpDpX _ | .cmpDpIndLongY _ | .cmpAbsY _ | .cmpAbsX _ | .cmpLongX _ | .cpxImm _ | .cpxDp _ | .cpxAbs _
  | .cpyImm _ | .cpyDp _ | .cpyAbs _ =>
    .of_finish rfl (.tame ((Tame.refl s).compare _ _ _))
  | .bitImm _ => .of_finish rfl (.tame (tame_bitImmA s _))
  | .bitDp _ | .bitAbs _ | .bitDpX _ | .bitAbsX _ => .of_finish rfl (.tame (tame_bitMemA s _))
  | .aslDp _ | .aslAbs _ | .aslDpX _ | .aslAbsX _ | .lsrDp _ | .lsrAbs _ | .lsrDpX _ | .lsrAbsX _ | .rolDp _ | .rolAbs _ | .rolDpX _
  | .rolAbsX _ | .rorDp _ | .rorAbs _ | .rorDpX _ | .rorAbsX _ =>
    .of_finish rfl (.tame ((tame_putFlag_setNZ s _ _ _).writeOp _ _ _))
  | .aslAcc | .lsrAcc | .rolAcc | .rorAcc => .of_finish rfl (.tame ((tame_putFlag_setNZ s _ _ _).setAcc _))
  | .incDp _ | .incAbs _ | .incDpX _ | .incAbsX _ | .decDp _ | .decAbs _ | .decDpX _ | .decAbsX _ =>
    .of_finish rfl (.tame (((Tame.refl s).setNZ _ _).writeOp _ _ _))
  | .incAcc | .decAcc => .of_finish rfl (.tame (((Tame.refl s).setNZ _ _).setAcc _))
  | .trbDp _ | .trbAbs _ | .tsbDp _ | .tsbAbs _ => .of_finish rfl (.tame ((tame_bitImmA s _).writeOp _ _ _))
  | .inx | .dex | .tax | .tyx | .tsx => .of_finish rfl (.tame (tame_setX s _))
  | .iny | .dey | .tay | .txy => .of_finish rfl (.tame (tame_setY s _))
  | .bcc _ | .bcs _ | .beq _ | .bmi _ | .bne _ | .bpl _ | .bvc _ | .bvs _ => completes_branchForm _ _ _ s
  | .bra _ => completes_branchForm (.bra _) true _ s
  | .brl _ | .jmpAbs _ | .jmpAbsInd _ | .jmpAbsXInd _ => .of_finish rfl (.tame ((Tame.refl s).withPC _))
  | .jsrAbs _ | .jsrAbsXInd _ => .of_finish rfl (.tame (((Tame.refl s).push16 _).withPC _))
  | .jmlLong _ => .of_finish rfl (effect_jumpLong _ (.inl ⟨_, rfl⟩) (Tame.refl s))
  | .jmlAbsIndLong _ => .of_finish rfl (effect_jumpLong _ (.inr (.inl ⟨_, rfl⟩)) (Tame.refl s))
  | .jsl _ => .of_finish rfl (effect_jumpLong _ (.inr (.inr (.inl ⟨_, rfl⟩))) (((Tame.refl s).push8 _).push16 _))
  | .rts => .of_finish rfl (.tame ((Tame.refl s).pull16.withPC _))
  | .rtl => .of_finish rfl (effect_rtl s)
  | .rti => .of_finish rfl (effect_rti s)
  | .brk _ => completes_trapEntry s .brk (.inl ⟨_, rfl⟩) rfl
  | .cop _ => completes_trapEntry s .cop (.inr ⟨_, rfl⟩) rfl
  | .mvn _ _ => .of_finish rfl (effect_blockMove s _ _ _ (.inl ⟨_, _, rfl⟩))
  | .mvp _ _ => .of_finish rfl (effect_blockMove s _ _ _ (.inr ⟨_, _, rfl⟩))
  | .nop | .wdm _ => .of_finish rfl (.tame (Tame.refl s))
  | .wai => .of_finish rfl (.wai s)
  | .stp => .of_finish rfl (.stp s)
  | .pha | .phx | .phy => .of_finish rfl (.tame ((Tame.refl s).pushW _ _))
  | .php | .phb | .phk => .of_finish rfl (.tame ((Tame.refl s).push8 _))
  | .phd | .pea _ | .pei _ | .per _ => .of_finish rfl (.tame ((Tame.refl s).push16 _))
  | .pla => .of_finish rfl (effect_pla s)
  | .plx => .of_finish rfl (.tame ((((Tame.refl s).pullW _).withX (hi_pullW_wX s)).setNZ _ _))
  | .ply => .of_finish rfl (.tame ((((Tame.refl s).pullW _).withY (hi_pullW_wX s)).setNZ _ _))
  | .plp => .of_finish rfl (.status (Tame.refl s).pull8 _)
  | .plb => .of_finish rfl (effect_plb s)
  | .pld => .of_finish rfl (effect_pld s)
  | .rep _ | .sep _ => .of_finish rfl (.status (Tame.refl s) _)
  | .clc | .cld | .cli | .clv | .sec | .sed | .sei => .of_finish rfl (.tame ((Tame.refl s).putFlag (by decide) (by decide) _))
  | .txa | .tya => .of_finish rfl (.tame (((Tame.refl s).setAcc _).setNZ _ _))
  | .txs | .tcs => .of_finish rfl (.tame ((Tame.refl s).withSP _))
  | .tcd => .of_finish rfl (effect_tcd s)
  | .tdc => .of_finish rfl (effect_setAcc16 s _ (.inl rfl))
  | .tsc => .of_finish rfl (effect_setAcc16 s _ (.inr rfl))
  | .xba => .of_finish rfl (effect_xba s)
  | .xce => .of_finish rfl (.xce s)

end Sys2Proof.Machine
end

section
/-! PROOFS. What every instruction keeps: the mode invariants, the control state but for its writers, A.h at width 8; and that
it completes with its row of BaseCycles. -/

namespace Sys2Proof.Machine

theorem modeInv_trapEntry {s : State} (hs : s.ModeInv) (ev : TrapEvent) : (s.trapEntry ev).ModeInv :=
  ((((tame_pushFrame s ev).putFlag (f := .i) (by decide) (by decide) true).putFlag (f := .d) (by decide) (by decide)
    false).modeInv hs).congr rfl rfl rfl rfl rfl rfl

/-- EnforceModeInvariants writes P, SP, X and Y only. -/
theorem State.exists_enforceModes (s : State) :
    ∃ p sp x y, s.enforceModes = { s with p := p, sp := sp, x := x, y := y } := ⟨_, _, _, _, s.enforceModes_eq⟩

theorem State.exists_setP (s : State) (v : Byte) :
    ∃ p sp x y, s.setP v = { s with p := p, sp := sp, x := x, y := y } := State.exists_enforceModes { s with p := v }

/-- The frame of the writes of one register: nothing that the mode invariants speak of. -/
theorem WritesOne.frame {i : Instr} {u t : State} (h : WritesOne i u t) :
    t = { u with a := t.a, pb := t.pb, db := t.db, d := t.d, stopped := t.stopped, waiting := t.waiting } := by
  obtain ⟨-, b, rfl⟩ | ⟨-, b, rfl⟩ | ⟨-, v, b, rfl⟩ | ⟨-, v, rfl⟩ | ⟨-, v, rfl⟩ | ⟨-, rfl⟩ | ⟨-, rfl⟩ := h <;> rfl

/-- Each effect writes what the mode invariants are about as data operations do, or through SetP or EnforceModeInvariants. -/
theorem Effect.modeInv {s t : State} {i : Instr} (h : Effect s i t) (hs : s.ModeInv) : t.ModeInv := by
  obtain h | ⟨u, h, hw⟩ | ⟨u, v, h, rfl⟩ | ⟨-, rfl⟩ | ⟨-, u, v, b, h, -, -, rfl⟩ | ⟨-, ev, rfl⟩ := h
  · exact h.modeInv hs
  · rw [hw.frame]
    exact (h.modeInv hs).congr rfl rfl rfl rfl rfl rfl
  · exact State.modeInv_setP u v
  · exact State.modeInv_enforceModes _
  · exact (h.modeInv (State.modeInv_setP _ v)).congr rfl rfl rfl rfl rfl rfl
  · exact (modeInv_trapEntry hs ev).congr rfl rfl rfl rfl rfl rfl

/-- Settles O17: by the effects of an instruction (`exec_completes`), of which each keeps the mode invariants. -/
theorem instructionsKeepModeInv : Obligations.InstructionsKeepModeInv := by
  intro i s hs
  obtain ⟨t, pen, hexec, heff⟩ := exec_completes i s
  exact ⟨_, hexec, (heff.modeInv hs).congr rfl rfl rfl rfl rfl rfl⟩

/-! ### The cycles (R37, R110, R111) -/

theorem Effect.cycles {s t : State} {i : Instr} (h : Effect s i t) : t.cycles = s.cycles := by
  obtain h | ⟨u, h, hw⟩ | ⟨u, v, h, rfl⟩ | ⟨-, rfl⟩ | ⟨-, u, v, b, h, -, -, rfl⟩ | ⟨-, ev, rfl⟩ := h
  · exact h.cycles
  · rw [hw.frame]
    exact h.cycles
  · obtain ⟨p, sp, x, y, hset⟩ := u.exists_setP v
    rw [hset]
    exact h.cycles
  · obtain ⟨p, sp, x, y, hset⟩ := State.exists_enforceModes { s.putFlag .c s.e with e := s.flag .c }
    rw [hset]
    rfl
  · obtain ⟨p, sp, x, y, hset⟩ := s.pull8.2.exists_setP v
    rw [hset] at h
    exact h.cycles
  · rfl

/-- Settles O21: the row of the opcode is what every instruction adds (`exec_completes`), and a row is at least its constant. -/
theorem instructionsAdvanceCycles : Obligations.InstructionsAdvanceCycles := by
  intro i s
  obtain ⟨t, pen, hexec, heff⟩ := exec_completes i s
  refine ⟨_, pen, cost i s pen, hexec, ?_, rfl, fun hwf => cost_pos hwf i pen, fun hdef => ?_⟩
  · rw [State.tick_cycles, heff.cycles]
  · rw [cost_default hdef]
    obtain ⟨hlow, -, -, -, -, -, hhigh⟩ := cycleExpr_bounds i
    obtain ⟨hle, hge⟩ := cycleValue_bounds (cycleExpr i) s pen
    exact ⟨hlow.trans hle, hge.trans hhigh⟩

/-! ### The writers of the control state (R24, R25, R35, R36, R38) -/

/-- Settles O20: each effect writes the control state only in the instructions that it names. -/
theorem writersOfControlState : Obligations.WritersOfControlState := by
  intro i s t hexec
  obtain ⟨u, pen, hu, heff⟩ := exec_completes i s
  obtain rfl : u.tick (cost i s pen) = t := Host.Outcome.next.inj (hu.symm.trans hexec)
  obtain h | ⟨u, h, hw⟩ | ⟨u, v, h, rfl⟩ | ⟨hi, rfl⟩ | ⟨hi, u, v, b, h, -, hb, rfl⟩ | ⟨hi, ev, rfl⟩ := heff
  · obtain ⟨hpb, hdb, hd, he, hst, hwa, hirq, hnmi, -, hdiag, hcfg⟩ := h.control
    exact ⟨hirq, hnmi, hdiag, hcfg, absurd hpb, absurd hdb, absurd hd, absurd he, absurd hst, absurd hwa⟩
  · obtain ⟨hpb, hdb, hd, he, hst, hwa, hirq, hnmi, -, hdiag, hcfg⟩ := h.control
    obtain ⟨hi, b, rfl⟩ | ⟨hi, b, rfl⟩ | ⟨hi, v, b, rfl⟩ | ⟨hi, v, rfl⟩ | ⟨-, v, rfl⟩ | ⟨hi, rfl⟩ | ⟨hi, rfl⟩ := hw
    · refine ⟨hirq, hnmi, hdiag, hcfg, fun _ => ?_, absurd hdb, absurd hd, absurd he, absurd hst, absurd hwa⟩
      exact hi.imp_right (Or.imp_right (Or.imp_right .inl))
    · exact ⟨hirq, hnmi, hdiag, hcfg, absurd hpb, fun _ => .inl hi, absurd hd, absurd he, absurd hst, absurd hwa⟩
    · exact ⟨hirq, hnmi, hdiag, hcfg, absurd hpb, fun _ => .inr hi, absurd hd, absurd he, absurd hst, absurd hwa⟩
    · exact ⟨hirq, hnmi, hdiag, hcfg, absurd hpb, absurd hdb, fun _ => hi, absurd he, absurd hst, absurd hwa⟩
    · exact ⟨hirq, hnmi, hdiag, hcfg, absurd hpb, absurd hdb, absurd hd, absurd he, absurd hst, absurd hwa⟩
    · exact ⟨hirq, hnmi, hdiag, hcfg, absurd hpb, absurd hdb, absurd hd, absurd he, absurd hst, fun _ => .inl hi⟩
    · exact ⟨hirq, hnmi, hdiag, hcfg, absurd hpb, absurd hdb, absurd hd, absurd he, fun _ => hi, absurd hwa⟩
  · obtain ⟨hpb, hdb, hd, he, hst, hwa, hirq, hnmi, -, hdiag, hcfg⟩ := h.control
    obtain ⟨p, sp, x, y, hset⟩ := u.exists_setP v
    rw [hset]
    exact ⟨hirq, hnmi, hdiag, hcfg, absurd hpb, absurd hdb, absurd hd, absurd he, absurd hst, absurd hwa⟩
  · obtain ⟨p, sp, x, y, hset⟩ := State.exists_enforceModes { s.putFlag .c s.e with e := s.flag .c }
    rw [hset]
    exact ⟨rfl, rfl, rfl, rfl, absurd rfl, absurd rfl, absurd rfl, fun _ => hi, absurd rfl, absurd rfl⟩
  · obtain ⟨p, sp, x, y, hset⟩ := s.pull8.2.exists_setP v
    rw [hset] at h
    obtain ⟨-, hdb, hd, he, hst, hwa, hirq, hnmi, -, hdiag, hcfg⟩ := h.control
    refine ⟨hirq, hnmi, hdiag, hcfg, fun hne => ?_, absurd hdb, absurd hd, absurd he, absurd hst, absurd hwa⟩
    exact .inr (.inr (.inr (.inr (.inl ⟨hi, Bool.eq_false_iff.2 (mt hb hne)⟩))))
  · have hframe := s.trapEntry_eq ev
    obtain ⟨-, hdb, hd, he, hst, -, hirq, hnmi, -, hdiag, hcfg⟩ := (tame_pushFrame s ev).control
    rw [hframe]
    refine ⟨hirq, hnmi, hdiag, hcfg, fun _ => ?_, absurd hdb, absurd hd, absurd he, absurd hst, fun _ => .inr hi⟩
    exact .inr (.inr (.inr (.inr (.inr hi))))

/-! ### A.h at width 8 (R20) -/

/-- Settles O22: the effects that are not data operations and yet write A are those of the instructions named. -/
theorem highAccumulatorByteKept : Obligations.HighAccumulatorByteKept := by
  intro i s t hm hexec
  refine ⟨?_, fun hne => ?_⟩
  · rintro rfl
    obtain rfl : s.pullA.tick (cost .pla s) = t := Host.Outcome.next.inj hexec
    exact hi_pullW_wA s hm
  · obtain ⟨u, pen, hu, heff⟩ := exec_completes i s
    obtain rfl : u.tick (cost i s pen) = t := Host.Outcome.next.inj (hu.symm.trans hexec)
    obtain h | ⟨u, h, hw⟩ | ⟨u, v, h, rfl⟩ | ⟨-, rfl⟩ | ⟨-, u, v, b, -, ha, -, rfl⟩ | ⟨-, ev, rfl⟩ := heff
    · exact absurd (h.a_high hm) hne
    · obtain ⟨-, b, rfl⟩ | ⟨-, b, rfl⟩ | ⟨hi, -⟩ | ⟨-, v, rfl⟩ | ⟨hi, -⟩ | ⟨-, rfl⟩ | ⟨-, rfl⟩ := hw
      · exact absurd (h.a_high hm) hne
      · exact absurd (h.a_high hm) hne
      · exact .inr (.inr (.inr (.inr hi)))
      · exact absurd (h.a_high hm) hne
      · exact hi.imp_right (Or.imp_right (Or.imp_right .inl))
      · exact absurd (h.a_high hm) hne
      · exact absurd (h.a_high hm) hne
    · obtain ⟨p, sp, x, y, hset⟩ := u.exists_setP v
      rw [hset] at hne
      exact absurd (h.a_high hm) hne
    · obtain ⟨p, sp, x, y, hset⟩ := State.exists_enforceModes { s.putFlag .c s.e with e := s.flag .c }
      rw [hset] at hne
      exact absurd rfl hne
    · exact absurd (congrArg hi ha) hne
    · exact absurd ((tame_pushFrame s ev).a_high hm) hne

end Sys2Proof.Machine
end

section
/-! PROOFS. The step (60_exceptions.md R410): what it answers in every state, and the invariant of every run (R41, R417). -/

namespace Sys2Proof.Machine

/-! ### The entry of a trap or an interrupt (R405) -/

/-- `TrapEntry` does what an entry is to do: the frame is that of `pushFrame`, the vector word is read after it. -/
theorem entered_trapEntry (s : State) (ev : TrapEvent) :
    Entered s (s.trapEntry ev) ev (pushedP ev s.e s.p) (vector ev s.e) := by
  obtain ⟨hstores, hsp, -, -⟩ := pushed_pushFrame s ev
  have hframe := (tame_pushFrame s ev).frame
  have hflag : ∀ f, (s.trapEntry ev).flag f = if f = .d then false else if f = .i then true else s.flag f := fun f => by
    rw [State.flag, State.trapEntry_eq, getLsbD_put, getLsbD_put]; rfl
  refine ⟨?_, ?_, ?_, ?_, ?_, ?_, ?_⟩
  · rw [State.trapEntry_eq, State.chargeEntry_eq]
    simp
  · exact hstores.congr (by rw [State.trapEntry_eq]) (by rw [State.trapEntry_eq])
  · rw [State.trapEntry_eq, hsp]
  · rw [State.trapEntry_eq]; rfl
  · rw [hflag]; rfl
  · rw [hflag]; rfl
  · intro f hf
    have hd : f ≠ .d := fun h => hf (by simp [h])
    have hi : f ≠ .i := fun h => hf (by simp [h])
    rw [hflag, if_neg hd, if_neg hi]

/-- The WAI latch plays no part in an entry, which clears it. -/
theorem State.trapEntry_with_waiting (s : State) (ev : TrapEvent) (w : Bool) :
    ({ s with waiting := w } : State).trapEntry ev = s.trapEntry ev := by
  have hframe : ({ s with waiting := w } : State).pushFrame ev = { s.pushFrame ev with waiting := w } := by
    unfold State.pushFrame
    by_cases he : s.e = true
    · rw [if_pos he, if_pos he]; rfl
    · rw [if_neg he, if_neg he]; rfl
  have hcost : ({ s with waiting := w } : State).entryCost ev = s.entryCost ev := by cases ev <;> rfl
  rw [State.trapEntry_eq, State.trapEntry_eq, hframe, hcost]
  rfl

/-- The vectors of R403. -/
theorem vector_eq (e : Bool) :
    vector .brk e = (if e then 0xFFFE else 0xFFE6) ∧ vector .cop e = (if e then 0xFFF4 else 0xFFE4) ∧
      vector .irq e = (if e then 0xFFFE else 0xFFEE) ∧ vector .nmi e = (if e then 0xFFFA else 0xFFEA) := by
  cases e <;> exact ⟨rfl, rfl, rfl, rfl⟩

/-- The pushed copies of P (R405). -/
theorem pushedP_eq (e : Bool) (p : Byte) :
    pushedP .brk e p = p ∧ pushedP .cop e p = p ∧ pushedP .irq e p = (if e then p &&& 0xEF else p) ∧
      pushedP .nmi e p = (if e then p &&& 0xEF else p) := by
  cases e <;> exact ⟨rfl, rfl, rfl, rfl⟩

/-- Settles O10: BRK and COP are `TrapEntry`, with their vectors of both modes. -/
theorem softwareInterruptsEnter : Obligations.SoftwareInterruptsEnter := by
  intro s sig
  refine ⟨⟨_, rfl, ?_⟩, _, rfl, ?_⟩
  · simpa only [vector_eq, pushedP_eq] using entered_trapEntry s .brk
  · simpa only [vector_eq, pushedP_eq] using entered_trapEntry s .cop

/-- Settles O8: a step that takes an interrupt is the entry from the state with its latch cleared. -/
theorem stepTakesInterrupts : Obligations.StepTakesInterrupts := by
  intro s hstop
  refine ⟨fun hnmi => ⟨_, step_nmi hstop hnmi, ?_⟩, fun hnmi hirq hi => ⟨_, step_irq hstop hnmi hirq hi, ?_⟩⟩
  · simpa only [vector_eq, pushedP_eq] using entered_trapEntry { s with nmiPending := false } .nmi
  · have h := entered_trapEntry { s with irqPending := false } .irq
    rw [← State.trapEntry_with_waiting _ _ s.irqWake.waiting] at h
    rw [State.irqWake_eq] at h ⊢
    simpa only [vector_eq, pushedP_eq] using h

/-! ### A step that runs an instruction (R104, R410) -/

/-- A running step starts with `waiting` clear: an IRQ has ended WAI, or it was clear. -/
theorem State.Running.irqWake_eq {s : State} (h : s.Running) : s.irqWake = { s with waiting := false } := by
  obtain ⟨-, -, -, hwait⟩ := h
  rw [State.irqWake_eq]
  cases hw : s.waiting
  · rfl
  · rw [hwait hw]; rfl

/-- Settles O5: the running step, unfolded; the bytes the decoder took are the length of what it read. -/
theorem stepRunsTheDecodedInstruction : Obligations.StepRunsTheDecodedInstruction := by
  intro s i rest hrun hdef hdecode
  obtain ⟨-, -, hlen⟩ := encodeOfDecode _ _ _ _ _ hdecode
  have hfour : s.fetchBytes.length = 4 := rfl
  rw [step_running hrun, hrun.irqWake_eq]
  obtain ⟨hundef, -⟩ | ⟨-, ir, hir, hrunIr⟩ := State.runInstruction_cases { s with waiting := false }
  · exact absurd hundef hdef
  · obtain rfl : (i, rest) = ir := Except.ok.inj (hdecode.symm.trans hir)
    rw [hrunIr, show 4 - rest.length = i.length (s.flag .m) (s.flag .x) by omega]
    rfl

/-- Settles O9: the unknown-opcode path keeps the mode invariants, so the end of the step changes nothing. -/
theorem stepOnUndefinedOpcode : Obligations.StepOnUndefinedOpcode := by
  intro s hrun hinv hundef
  have hunknown : (({ s with waiting := false } : State).unknownOpcode s.fetchOpcode).ModeInv :=
    hinv.congr rfl rfl rfl rfl rfl rfl
  rw [step_running hrun, hrun.irqWake_eq]
  obtain ⟨-, hpath⟩ | ⟨hdef, -⟩ := State.runInstruction_cases { s with waiting := false }
  · exact hpath.trans (congrArg _ (State.enforceModes_eq_self hunknown))
  · exact absurd hundef hdef

/-- Settles O7, a clause for each latch. -/
theorem haltedStepChangesNothing : Obligations.HaltedStepChangesNothing := fun _ =>
  ⟨step_stopped, fun hwait hirq hnmi => step_waiting hnmi hirq hwait⟩

/-! ### Every step -/

/-- What a step can answer: the state itself, an entry from the state with a latch cleared, the unknown-opcode path, or the
result of an instruction that starts with both halt latches clear. -/
theorem step_answers (s : State) : ∃ t, step s = .next t ∧
    (t = s ∨
      (∃ (w i n : Bool) (ev : TrapEvent),
        t = ({ s with waiting := w, irqPending := i, nmiPending := n } : State).trapEntry ev) ∨
      (s.stopped = false ∧ t = (({ s with waiting := false } : State).unknownOpcode s.fetchOpcode).enforceModes) ∨
      (s.stopped = false ∧ ∃ (i : Instr) (pc : Word) (u : State),
        exec i { s with waiting := false, pc := pc } = .next u ∧ t = u.enforceModes)) := by
  obtain hs | ⟨hs, hn⟩ | ⟨hs, hn, hi, hmask⟩ | ⟨hn, hi, hw⟩ | hrun := s.step_state
  · exact ⟨s, step_stopped hs, .inl rfl⟩
  · exact ⟨_, step_nmi hs hn, .inr (.inl ⟨s.waiting, s.irqPending, false, .nmi, rfl⟩)⟩
  · exact ⟨_, step_irq hs hn hi hmask, .inr (.inl ⟨_, false, s.nmiPending, .irq, by rw [State.irqWake_eq]⟩)⟩
  · exact ⟨s, step_waiting hn hi hw, .inl rfl⟩
  · have hstop := hrun.1
    rw [step_running hrun, hrun.irqWake_eq]
    obtain ⟨-, hpath⟩ | ⟨-, ir, -, hpath⟩ := State.runInstruction_cases { s with waiting := false }
    · exact ⟨_, hpath, .inr (.inr (.inl ⟨hstop, rfl⟩))⟩
    · obtain ⟨u, pen, hexec, -⟩ :=
        exec_completes ir.1 { s with waiting := false, pc := s.pc + BitVec.ofNat 16 (4 - ir.2.length) }
      refine ⟨_, hpath.trans ?_, .inr (.inr (.inr ⟨hstop, ir.1, _, _, hexec, rfl⟩))⟩
      exact congrArg (mapNext State.enforceModes) hexec

/-- Settles O6: a step answers in every state. -/
theorem everyStepAnswersNext : Obligations.EveryStepAnswersNext := fun s =>
  let ⟨t, ht, _⟩ := step_answers s
  ⟨t, ht⟩

/-! ### The invariant of every run -/

theorem State.mem_enforceModes_wf {s : State} (h : s.mem.wf) : s.enforceModes.mem.wf := by
  rwa [State.enforceModes_mem]

/-- Each effect writes memory by bus writes only. -/
theorem Effect.wf {s t : State} {i : Instr} (h : Effect s i t) (hs : s.mem.wf) : t.mem.wf := by
  obtain h | ⟨u, h, hw⟩ | ⟨u, v, h, rfl⟩ | ⟨-, rfl⟩ | ⟨-, u, v, b, h, -, -, rfl⟩ | ⟨-, ev, rfl⟩ := h
  · exact h.wf hs
  · rw [hw.frame]
    exact h.wf hs
  · exact State.mem_enforceModes_wf (h.wf hs)
  · exact State.mem_enforceModes_wf hs
  · exact h.wf (State.mem_enforceModes_wf hs)
  · exact State.trapEntry_wf hs ev

/-- An instruction that starts with both halt latches clear sets one at most (R417): no instruction writes both. -/
theorem exec_not_both_halts {i : Instr} {s t : State} (hexec : exec i s = .next t) (hs : s.stopped = false)
    (hw : s.waiting = false) : ¬(t.stopped = true ∧ t.waiting = true) := by
  obtain ⟨-, -, -, -, -, -, -, -, hstp, hwai⟩ := writersOfControlState i s t hexec
  rintro ⟨hts, htw⟩
  obtain rfl := hstp (by rw [hts, hs]; decide)
  have := hwai (by rw [htw, hw]; decide)
  simp at this

/-- Settles O18: by what a step can answer (`step_answers`), with the mode invariants restored at its end, and the effects of
an instruction on memory and the halt latches. -/
theorem stepKeepsInv : Obligations.StepKeepsInv := by
  rintro s t ⟨hmode, hwf, hhalt⟩ hstep
  obtain ⟨t', ht', hcases⟩ := step_answers s
  obtain rfl : t' = t := Host.Outcome.next.inj (ht'.symm.trans hstep)
  obtain rfl | ⟨w, i, n, ev, rfl⟩ | ⟨hstop, rfl⟩ | ⟨hstop, i, pc, u, hexec, rfl⟩ := hcases
  · exact ⟨hmode, hwf, hhalt⟩
  · have hmode' : ({ s with waiting := w, irqPending := i, nmiPending := n } : State).ModeInv :=
      hmode.congr rfl rfl rfl rfl rfl rfl
    refine ⟨modeInv_trapEntry hmode' ev, State.trapEntry_wf (by exact hwf) ev, ?_⟩
    rw [State.trapEntry_eq]
    exact fun h => Bool.false_ne_true h.2
  · refine ⟨State.modeInv_enforceModes _, State.mem_enforceModes_wf hwf, ?_⟩
    rw [State.enforceModes_waiting]
    exact fun h => Bool.false_ne_true h.2
  · obtain ⟨v, pen, hv, heff⟩ := exec_completes i { s with waiting := false, pc := pc }
    obtain rfl : v.tick _ = u := Host.Outcome.next.inj (hv.symm.trans hexec)
    refine ⟨State.modeInv_enforceModes _, State.mem_enforceModes_wf (heff.wf hwf), ?_⟩
    rw [State.enforceModes_stopped, State.enforceModes_waiting]
    exact exec_not_both_halts hexec hstop rfl

/-! ### Reset, power-on and the moves of the host (R43, R84, R411, R440) -/

theorem inv_resetWith (cfg : Config) {mem : Memory} (hwf : mem.wf) (diag : List Diagnostic) :
    (State.resetWith cfg mem diag).Inv := by
  have hm : (0x34#8).getLsbD 5 = true := by decide
  have hx : (0x34#8).getLsbD 4 = true := by decide
  have hsp : hi 0x01FF = 0x01 := by decide
  have hzero : hi 0x0000 = 0x00 := by decide
  exact ⟨⟨fun _ => ⟨hm, hx, hsp⟩, fun _ => ⟨hzero, hzero⟩⟩, hwf, fun h => Bool.false_ne_true h.1⟩

/-- Settles O16: power-on is a reset over memory in canonical form. -/
theorem resetSatisfiesInv : Obligations.ResetSatisfiesInv :=
  have h : ∀ cfg : Config, (State.powerOn cfg).Inv := fun cfg => inv_resetWith cfg (Memory.ofCells_wf _) []
  ⟨h defaultConfig, h⟩

theorem State.pokeRegister_mem (s : State) (r : RegName) (n : Nat) : (s.pokeRegister r n).mem = s.mem := by
  cases r <;> rfl

theorem State.pokeRegister_latches (s : State) (r : RegName) (n : Nat) :
    (s.pokeRegister r n).stopped = s.stopped ∧ (s.pokeRegister r n).waiting = s.waiting := by
  cases r <;> exact ⟨rfl, rfl⟩

/-- Settles O19, move by move. -/
theorem hostMovesKeepInv : Obligations.HostMovesKeepInv := by
  rintro s ⟨hmode, hwf, hhalt⟩
  refine ⟨inv_resetWith _ hwf _, ⟨hmode, hwf, hhalt⟩, ⟨hmode, hwf, hhalt⟩, fun a v => ?_, fun r n => ?_⟩
  · exact ⟨hmode, State.busWrite_wf hwf a v, hhalt⟩
  · obtain ⟨hstop, hwait⟩ := s.pokeRegister_latches r n
    refine ⟨State.modeInv_enforceModes _, State.mem_enforceModes_wf (by rwa [State.pokeRegister_mem]), ?_⟩
    rwa [State.writeRegister, State.enforceModes_stopped, State.enforceModes_waiting, hstop, hwait]

/-- Under MinimalMap a byte of WRAM reads as its home in memory. -/
theorem State.busRead_wram {s : State} (hbus : s.cfg.bus = minimalMap) {a : Addr} {k : Nat} (h : wramIndex a = some k) :
    s.busRead a = s.mem.read (0x7E0000 + k) := by
  have hk := wramIndex_lt h
  rw [State.busRead_of_home (State.home_wram hbus h), BitVec.toNat_ofNat, Nat.mod_eq_of_lt (by omega)]

/-- Settles O15: the fields of reset, and at power-on memory as WRAM_INIT lists it. -/
theorem resetLeaves : Obligations.ResetLeaves := by
  refine ⟨fun s => rfl, fun cfg => ⟨rfl, rfl, rfl, fun a => ?_, fun hbus w => ?_⟩, rfl, rfl, rfl⟩
  · exact Memory.read_ofCells _ a.isLt
  · obtain ⟨cells, hcells⟩ := Memory.exists_cells 0x7E0000 131072 (by omega) fun k => w (Fin.ofNat 131072 k)
    refine ⟨cells, fun a k hk => ?_⟩
    have hbus' : (State.powerOn { cfg with wramInit := cells }).cfg.bus = minimalMap := hbus
    rw [State.busRead_wram hbus' hk, State.powerOn_mem, hcells k.val k.isLt, Fin.ofNat_eq_cast, Fin.cast_val_eq_self]

end Sys2Proof.Machine
end

section
/-! PROOFS. The binary adders (42_alu.md R190, R192, R203): the sum modulo the width, the carry and the signed overflow. -/

namespace Sys2Proof.Machine

/-! ### The sign bit of a width -/

theorem Width.msb_and (w : Width) (u v : Word) : w.msb (u &&& v) = (w.msb u && w.msb v) := BitVec.getLsbD_and ..

theorem Width.msb_xor (w : Width) (u v : Word) : w.msb (u ^^^ v) = (w.msb u ^^ w.msb v) := BitVec.getLsbD_xor ..

/-- The sign bit of a value of the width, as arithmetic. -/
theorem Width.msb_eq_decide {w : Width} {v : Word} (hv : v.toNat < 2 ^ w.bits) :
    w.msb v = decide (2 ^ (w.bits - 1) ≤ v.toNat) := by
  show v.toNat.testBit (w.bits - 1) = _
  rw [Nat.testBit_eq_decide_div_mod_eq, decide_eq_decide]
  cases w <;> simp only [Width.bits] at hv ⊢ <;> omega

/-- The signed value of a value of the width. -/
theorem Width.signed_eq {w : Width} {v : Word} (hv : v.toNat < 2 ^ w.bits) :
    w.signed v = v.toNat - if 2 ^ (w.bits - 1) ≤ v.toNat then (2 ^ w.bits : Int) else 0 := by
  simp only [Width.signed, trunc_toNat, Nat.mod_eq_of_lt hv, Width.msb_eq_decide hv, decide_eq_true_iff]

/-- The overflow formula of the subtraction is that of the addition of the complement. -/
theorem overflow_not (a m r : Bool) : ((a ^^ m) && (a ^^ r)) = ((a ^^ r) && (!m ^^ r)) := by
  revert a m r
  decide

/-- The complement at a width. -/
theorem trunc_not_toNat {w : Width} {m : Word} (hm : m.toNat < 2 ^ w.bits) :
    (w.trunc (~~~m)).toNat = 2 ^ w.bits - 1 - m.toNat := by
  rw [trunc_toNat, BitVec.toNat_not]
  cases w <;> simp only [Width.bits] at hm ⊢ <;> omega

/-! ### The addition -/

section
variable {w : Width} {a m : Word} (c : Bool)

theorem adcBin_r_toNat : (adcBin w a m c).r.toNat = (a.toNat + m.toNat + c.toNat) % 2 ^ w.bits := by
  simp only [adcBin, BitVec.toNat_ofNat]
  cases w <;> simp only [Width.bits] <;> omega

theorem adcBin_c_iff : (adcBin w a m c).c = true ↔ 2 ^ w.bits ≤ a.toNat + m.toNat + c.toNat := decide_eq_true_iff

variable (ha : a.toNat < 2 ^ w.bits) (hm : m.toNat < 2 ^ w.bits)
include ha hm

/-- The overflow formula of R190 is the signed overflow: both operands have the sign that the result has not. -/
theorem adcBin_v_iff : (adcBin w a m c).v = true ↔
    w.signed a + w.signed m + c.toNat < -2 ^ (w.bits - 1) ∨ 2 ^ (w.bits - 1) ≤ w.signed a + w.signed m + c.toNat := by
  have hr := adcBin_r_toNat (w := w) (a := a) (m := m) c
  have hv : (adcBin w a m c).v = ((w.msb a ^^ w.msb (adcBin w a m c).r) && (w.msb m ^^ w.msb (adcBin w a m c).r)) := by
    rw [← Width.msb_xor, ← Width.msb_xor, ← Width.msb_and]; rfl
  have hrlt : (adcBin w a m c).r.toNat < 2 ^ w.bits := by rw [hr]; exact Nat.mod_lt _ (by positivity)
  have hc := c.toNat_le
  rw [hv, Width.msb_eq_decide ha, Width.msb_eq_decide hm, Width.msb_eq_decide hrlt, hr, Width.signed_eq ha,
    Width.signed_eq hm]
  simp only [Bool.and_eq_true, bne_iff_ne, ne_eq, decide_eq_decide]
  cases w <;> simp only [Width.bits] at ha hm ⊢ <;> omega

/-- R203: subtracting is adding the complement at the width. -/
theorem sbcBin_eq_adcBin : sbcBin w a m c = adcBin w a (w.trunc (~~~m)) c := by
  have hn := trunc_not_toNat hm
  have hnlt : (w.trunc (~~~m)).toNat < 2 ^ w.bits := by omega
  have hc := c.toNat_le
  have hr : (sbcBin w a m c).r = (adcBin w a (w.trunc (~~~m)) c).r := by
    simp only [sbcBin, adcBin, hn]
    congr 1
    cases w <;> simp only [Width.bits] at ha hm ⊢ <;> omega
  have hcarry : (sbcBin w a m c).c = (adcBin w a (w.trunc (~~~m)) c).c := by
    simp only [sbcBin, adcBin, hn, decide_eq_decide]
    cases w <;> simp only [Width.bits] at ha hm ⊢ <;> omega
  have hsign : w.msb (w.trunc (~~~m)) = !w.msb m := by
    rw [Width.msb_eq_decide hnlt, Width.msb_eq_decide hm, hn, ← decide_not, decide_eq_decide]
    cases w <;> simp only [Width.bits] at hm ⊢ <;> omega
  have hv : (sbcBin w a m c).v = (adcBin w a (w.trunc (~~~m)) c).v := by
    show w.msb ((a ^^^ m) &&& (a ^^^ (sbcBin w a m c).r)) =
      w.msb ((a ^^^ (adcBin w a (w.trunc (~~~m)) c).r) &&& (w.trunc (~~~m) ^^^ (adcBin w a (w.trunc (~~~m)) c).r))
    rw [hr]
    simp only [Width.msb_and, Width.msb_xor, hsign]
    exact overflow_not _ _ _
  exact AluOut.mk.injEq .. ▸ ⟨hr, hcarry, hv⟩

/-- The complement has the signed value -m - 1. -/
theorem signed_trunc_not : w.signed (w.trunc (~~~m)) = -w.signed m - 1 := by
  have hn := trunc_not_toNat hm
  rw [Width.signed_eq (by omega), Width.signed_eq hm, hn]
  cases w <;> simp only [Width.bits] at hm ⊢ <;> omega

end

/-- Settles O34: addition by its sum, and subtraction as the addition of the complement. -/
theorem binaryAdders : Obligations.BinaryAdders := by
  intro w a m c ha hm
  have hn := trunc_not_toNat hm
  have hnlt : (w.trunc (~~~m)).toNat < 2 ^ w.bits := by omega
  have hc := c.toNat_le
  refine ⟨adcBin_r_toNat c, adcBin_c_iff c, adcBin_v_iff c ha hm, ?_, ?_, ?_, sbcBin_eq_adcBin c ha hm⟩
  · rw [sbcBin_eq_adcBin c ha hm, adcBin_r_toNat, hn]
    cases w <;> simp only [Width.bits] at hm ⊢ <;> omega
  · rw [sbcBin_eq_adcBin c ha hm, adcBin_c_iff, hn]
    omega
  · rw [sbcBin_eq_adcBin c ha hm, adcBin_v_iff c ha hnlt, signed_trunc_not hm]
    · cases w <;> simp only [Width.bits] <;> omega
    · exact hm

end Sys2Proof.Machine
end

section
/-! PROOFS. The decimal adders (42_alu.md R191, R193): digit loops with a carry or a borrow. -/

namespace Sys2Proof.Machine

/-! ### Values put together from hexadecimal digits -/

/-- The value whose first `n` hexadecimal digits are those of `d`. -/
def hexSum (d : Nat → Nat) : Nat → Nat
  | 0 => 0
  | n + 1 => hexSum d n + d n * 16 ^ n

section
variable {d : Nat → Nat} (hd : ∀ k, d k < 16)
include hd

theorem hexSum_lt (n : Nat) : hexSum d n < 16 ^ n := by
  induction n with
  | zero => exact Nat.one_pos
  | succ n ih =>
    calc hexSum d n + d n * 16 ^ n < 16 ^ n + d n * 16 ^ n := Nat.add_lt_add_right ih _
      _ = (d n + 1) * 16 ^ n := by ring
      _ ≤ 16 * 16 ^ n := Nat.mul_le_mul_right _ (hd n)
      _ = 16 ^ (n + 1) := (Nat.pow_succ').symm

theorem hexSum_digit {k n : Nat} (hk : k < n) : hexSum d n / 16 ^ k % 16 = d k := by
  induction n with
  | zero => exact absurd hk k.not_lt_zero
  | succ n ih =>
    obtain hlt | rfl := Nat.lt_succ_iff_lt_or_eq.1 hk
    · have hpow : d n * 16 ^ n = d n * 16 ^ (n - k - 1) * 16 * 16 ^ k := by
        rw [mul_assoc, mul_assoc, ← Nat.pow_succ', ← Nat.pow_add]
        congr 2
        omega
      rw [hexSum, hpow, Nat.add_mul_div_right _ _ (by positivity), Nat.add_mul_mod_self_right, ih hlt]
    · rw [hexSum, Nat.add_mul_div_right _ _ (by positivity), Nat.div_eq_of_lt (hexSum_lt hd k), Nat.zero_add,
        Nat.mod_eq_of_lt (hd k)]

theorem hexSum_toNat {n : Nat} (hn : n ≤ 4) : (BitVec.ofNat 16 (hexSum d n)).toNat = hexSum d n := by
  rw [BitVec.toNat_ofNat]
  exact Nat.mod_eq_of_lt ((hexSum_lt hd n).trans_le (Nat.pow_le_pow_right (by decide) hn))

theorem nib_hexSum {k n : Nat} (hn : n ≤ 4) (hk : k < n) : nib (BitVec.ofNat 16 (hexSum d n)) k = d k := by
  rw [nib, hexSum_toNat hd hn, hexSum_digit hd hk]

end

theorem nib_lt (v : Word) (k : Nat) : nib v k < 16 := Nat.mod_lt _ (by decide)

theorem Width.digits_le (w : Width) : w.bits / 4 ≤ 4 := by cases w <;> decide

theorem Width.pow_digits (w : Width) : 16 ^ (w.bits / 4) = 2 ^ w.bits := by cases w <;> rfl

theorem bcdValue_lt {v : Word} {n : Nat} (hv : validBcd v n) : bcdValue v n < 10 ^ n := by
  induction n with
  | zero => exact Nat.one_pos
  | succ n ih =>
    have hlow := ih fun k hk => hv k (hk.trans n.lt_succ_self)
    calc bcdValue v n + nib v n * 10 ^ n < 10 ^ n + nib v n * 10 ^ n := Nat.add_lt_add_right hlow _
      _ = (nib v n + 1) * 10 ^ n := by ring
      _ ≤ 10 * 10 ^ n := Nat.mul_le_mul_right _ (Nat.succ_le_succ (hv n n.lt_succ_self))
      _ = 10 ^ (n + 1) := (Nat.pow_succ').symm

/-! ### The addition (R191) -/

section
variable (a m : Word) (c : Bool)

/-- The digit that the addition puts in place `k`. -/
def adcDigit (k : Nat) : Nat := decAdjust (nib a k + nib m k + (adcDecLoop a m c k).1) % 16

theorem adcDigit_lt (k : Nat) : adcDigit a m c k < 16 := Nat.mod_lt _ (by decide)

theorem adcDecLoop_snd (n : Nat) : (adcDecLoop a m c n).2 = hexSum (adcDigit a m c) n := by
  induction n with
  | zero => rfl
  | succ n ih => exact congrArg (· + adcDigit a m c n * 16 ^ n) ih

theorem adcDecLoop_carry_le (n : Nat) : (adcDecLoop a m c n).1 ≤ 1 := by
  cases n with
  | zero => exact c.toNat_le
  | succ n =>
    rw [adcDecLoop]
    split
    · exact le_rfl
    · exact Nat.zero_le 1

variable {a m c}

/-- One place of the addition, of decimal digits. -/
theorem adcDigit_spec {k : Nat} (ha : nib a k ≤ 9) (hm : nib m k ≤ 9) :
    adcDigit a m c k ≤ 9 ∧
      adcDigit a m c k + 10 * (adcDecLoop a m c (k + 1)).1 = nib a k + nib m k + (adcDecLoop a m c k).1 := by
  have hc := adcDecLoop_carry_le a m c k
  simp only [adcDigit, adcDecLoop, decAdjust]
  split <;> split <;> omega

/-- The digits of the sum are decimal, and stand for the sum, up to the carry out. -/
theorem bcdValue_adc {r : Word} {n : Nat} (hr : ∀ k < n, nib r k = adcDigit a m c k) (ha : validBcd a n)
    (hm : validBcd m n) :
    validBcd r n ∧ bcdValue r n + (adcDecLoop a m c n).1 * 10 ^ n = bcdValue a n + bcdValue m n + c.toNat := by
  induction n with
  | zero => exact ⟨fun k hk => absurd hk k.not_lt_zero, by simp [bcdValue, adcDecLoop]⟩
  | succ n ih =>
    obtain ⟨-, hsum⟩ := ih (fun k hk => hr k (by omega)) (fun k hk => ha k (by omega)) fun k hk => hm k (by omega)
    obtain ⟨-, hplace⟩ := adcDigit_spec (c := c) (ha n n.lt_succ_self) (hm n n.lt_succ_self)
    refine ⟨fun k hk => ?_, ?_⟩
    · rw [hr k hk]
      exact (adcDigit_spec (ha k hk) (hm k hk)).1
    · simp only [bcdValue, hr n n.lt_succ_self]
      have hplace' := congrArg (· * 10 ^ n) hplace
      simp only [Nat.pow_succ] at hplace' ⊢
      linarith
end

/-- Settles O35: the digits of the result are those of the loop, and the carry out is what the width cannot hold. -/
theorem decimalAdd : Obligations.DecimalAdd := by
  intro w a m c
  have hdigit := adcDigit_lt a m c
  have hr : (adcDec w a m c).r = BitVec.ofNat 16 (hexSum (adcDigit a m c) (w.bits / 4)) :=
    congrArg (BitVec.ofNat 16) (adcDecLoop_snd a m c _)
  refine ⟨rfl, ?_, fun ha hm => ?_⟩
  · rw [hr, hexSum_toNat hdigit w.digits_le, ← w.pow_digits]
    exact hexSum_lt hdigit _
  · have hnib : ∀ k < w.bits / 4, nib (adcDec w a m c).r k = adcDigit a m c k := fun k hk => by
      rw [hr, nib_hexSum hdigit w.digits_le hk]
    obtain ⟨hvalid, hsum⟩ := bcdValue_adc hnib ha hm
    have hlt := bcdValue_lt hvalid
    have hcarry := adcDecLoop_carry_le a m c (w.bits / 4)
    refine ⟨hvalid, ?_, ?_⟩
    · rw [← hsum, Nat.add_mul_mod_self_right, Nat.mod_eq_of_lt hlt]
    · rw [← hsum]
      show decide ((adcDecLoop a m c (w.bits / 4)).1 = 1) = true ↔ _
      rw [decide_eq_true_iff]
      obtain h0 | h1 := Nat.le_one_iff_eq_zero_or_eq_one.1 hcarry
      · rw [h0]; omega
      · rw [h1]; omega

/-! ### The subtraction (R193) -/

section
variable (a m : Word) (c : Bool)

/-- The digit that the subtraction puts in place `k`. -/
def sbcPlace (k : Nat) : Nat := (sbcDigit ((nib a k : Int) - nib m k - (sbcDecLoop a m c k).1)).2

theorem sbcDigit_lt (s : Int) : (sbcDigit s).2 < 16 := by
  dsimp only [sbcDigit]
  split_ifs <;> omega

theorem sbcPlace_lt (k : Nat) : sbcPlace a m c k < 16 := sbcDigit_lt _

theorem sbcDecLoop_snd (n : Nat) : (sbcDecLoop a m c n).2 = hexSum (sbcPlace a m c) n := by
  induction n with
  | zero => rfl
  | succ n ih => exact congrArg (· + sbcPlace a m c n * 16 ^ n) ih

theorem sbcDecLoop_borrow_succ (n : Nat) : (sbcDecLoop a m c (n + 1)).1 =
    if (nib a n : Int) - nib m n - (sbcDecLoop a m c n).1 < 0 then 1 else 0 := rfl

theorem sbcDecLoop_borrow_le (n : Nat) : (sbcDecLoop a m c n).1 ≤ 1 := by
  cases n with
  | zero => exact Nat.sub_le 1 _
  | succ n =>
    rw [sbcDecLoop_borrow_succ]
    split
    · exact le_rfl
    · exact Nat.zero_le 1

/-- The borrow out is what lifts the difference of the first `n` hexadecimal digits into their range. -/
theorem sbcDecLoop_borrow_spec (n : Nat) :
    0 ≤ ((a.toNat % 16 ^ n : Nat) : Int) - (m.toNat % 16 ^ n : Nat) - (1 - c.toNat) + (sbcDecLoop a m c n).1 * 16 ^ n ∧
      ((a.toNat % 16 ^ n : Nat) : Int) - (m.toNat % 16 ^ n : Nat) - (1 - c.toNat) + (sbcDecLoop a m c n).1 * 16 ^ n <
        16 ^ n := by
  induction n with
  | zero =>
    have hc := c.toNat_le
    simp only [sbcDecLoop, Nat.pow_zero, Nat.mod_one]
    omega
  | succ n ih =>
    have ha := nib_lt a n
    have hm := nib_lt m n
    have hb := sbcDecLoop_borrow_le a m c n
    have hplace : 0 ≤ (nib a n : Int) - nib m n - (sbcDecLoop a m c n).1 + 16 * (sbcDecLoop a m c (n + 1)).1 ∧
        (nib a n : Int) - nib m n - (sbcDecLoop a m c n).1 + 16 * (sbcDecLoop a m c (n + 1)).1 ≤ 15 := by
      rw [sbcDecLoop_borrow_succ]
      split <;> push_cast <;> omega
    obtain ⟨hlow, hhigh⟩ := hplace
    obtain ⟨ihlow, ihhigh⟩ := ih
    have hp : (0 : Int) < 16 ^ n := by positivity
    have hlow' := mul_le_mul_of_nonneg_right hlow hp.le
    have hhigh' := mul_le_mul_of_nonneg_right hhigh hp.le
    have hsplit (v : Word) : ((v.toNat % 16 ^ (n + 1) : Nat) : Int) = (v.toNat % 16 ^ n : Nat) + 16 ^ n * nib v n := by
      rw [Nat.mod_pow_succ]
      push_cast
      rfl
    rw [hsplit a, hsplit m]
    simp only [pow_succ]
    constructor <;> linarith

variable {a m c}

/-- One place of the subtraction, of decimal digits. -/
theorem sbcPlace_spec {k : Nat} (ha : nib a k ≤ 9) (hm : nib m k ≤ 9) :
    sbcPlace a m c k ≤ 9 ∧ (sbcPlace a m c k : Int) - 10 * (sbcDecLoop a m c (k + 1)).1 =
      nib a k - nib m k - (sbcDecLoop a m c k).1 := by
  have hb := sbcDecLoop_borrow_le a m c k
  rw [sbcDecLoop_borrow_succ]
  simp only [sbcPlace, sbcDigit]
  split <;> split <;> omega

/-- The digits of the difference are decimal, and stand for it, up to the borrow out. -/
theorem bcdValue_sbc {r : Word} {n : Nat} (hr : ∀ k < n, nib r k = sbcPlace a m c k) (ha : validBcd a n)
    (hm : validBcd m n) :
    validBcd r n ∧ (bcdValue r n : Int) - (sbcDecLoop a m c n).1 * 10 ^ n =
      bcdValue a n - bcdValue m n - (1 - c.toNat) := by
  induction n with
  | zero =>
    refine ⟨fun k hk => absurd hk k.not_lt_zero, ?_⟩
    have hc := c.toNat_le
    simp only [bcdValue, sbcDecLoop, pow_zero]
    omega
  | succ n ih =>
    obtain ⟨-, hdiff⟩ := ih (fun k hk => hr k (by omega)) (fun k hk => ha k (by omega)) fun k hk => hm k (by omega)
    obtain ⟨-, hplace⟩ := sbcPlace_spec (c := c) (ha n n.lt_succ_self) (hm n n.lt_succ_self)
    refine ⟨fun k hk => ?_, ?_⟩
    · rw [hr k hk]
      exact (sbcPlace_spec (ha k hk) (hm k hk)).1
    · have hplace' := congrArg (· * (10 : Int) ^ n) hplace
      simp only [bcdValue, hr n n.lt_succ_self, pow_succ] at hplace' ⊢
      push_cast at hplace' ⊢
      linarith

end

/-- Settles O36: the digits of the result are those of the loop, and the borrow out is that of the hexadecimal digits
and, of decimal ones, what the difference lacks. -/
theorem decimalSubtract : Obligations.DecimalSubtract := by
  intro w a m c
  have hdigit := sbcPlace_lt a m c
  have hr : (sbcDec w a m c).r = BitVec.ofNat 16 (hexSum (sbcPlace a m c) (w.bits / 4)) :=
    congrArg (BitVec.ofNat 16) (sbcDecLoop_snd a m c _)
  have hborrow := sbcDecLoop_borrow_le a m c (w.bits / 4)
  have hc := c.toNat_le
  refine ⟨rfl, ?_, fun ha hm => ?_, fun ha hm => ?_⟩
  · rw [hr, hexSum_toNat hdigit w.digits_le, ← w.pow_digits]
    exact hexSum_lt hdigit _
  · obtain ⟨hlow, hhigh⟩ := sbcDecLoop_borrow_spec a m c (w.bits / 4)
    rw [← w.pow_digits] at ha hm
    rw [Nat.mod_eq_of_lt ha, Nat.mod_eq_of_lt hm] at hlow hhigh
    show decide ((sbcDecLoop a m c (w.bits / 4)).1 = 0) = decide (0 ≤ (a.toNat : Int) - m.toNat - (1 - c.toNat))
    rw [decide_eq_decide]
    obtain h0 | h1 := Nat.le_one_iff_eq_zero_or_eq_one.1 hborrow
    · rw [h0] at hlow ⊢
      simpa using hlow
    · rw [h1] at hhigh ⊢
      simp only [Nat.cast_one, one_mul] at hhigh
      omega
  · have hnib : ∀ k < w.bits / 4, nib (sbcDec w a m c).r k = sbcPlace a m c k := fun k hk => by
      rw [hr, nib_hexSum hdigit w.digits_le hk]
    obtain ⟨hvalid, hdiff⟩ := bcdValue_sbc hnib ha hm
    have hlt := bcdValue_lt hvalid
    refine ⟨hvalid, ?_, ?_⟩
    · rw [← hdiff, Int.sub_mul_emod_self_right]
      exact (Int.emod_eq_of_lt (by omega) (by exact_mod_cast hlt)).symm
    · show decide ((sbcDecLoop a m c (w.bits / 4)).1 = 0) = true ↔ _
      rw [decide_eq_true_iff]
      have hlt' : (bcdValue (sbcDec w a m c).r (w.bits / 4) : Int) < 10 ^ (w.bits / 4) := by exact_mod_cast hlt
      obtain h0 | h1 := Nat.le_one_iff_eq_zero_or_eq_one.1 hborrow
      · rw [h0] at hdiff ⊢
        simp only [Nat.cast_zero, zero_mul] at hdiff
        omega
      · rw [h1] at hdiff ⊢
        simp only [Nat.cast_one, one_mul] at hdiff
        omega

end Sys2Proof.Machine
end

section
/-! PROOFS. The forms that read an operand (41_load_store.md R170 to R173, 42_alu.md R194 to R204): each applies one
operation to its operand and adds its cycles, so a family is settled by a lemma about its operation. -/

namespace Sys2Proof.Machine

/-! ### The cycle terms of the forms (R111) -/

section
variable {i : Instr} {s : State} {r : Resolved} {b : Nat}

theorem cycles_base {pen : Penalty} (hc : cycleExpr i = { base := b } := by rfl) :
    cycleValue (cycleExpr i) s pen = b := by
  simp [cycleValue_eq, hc]

theorem cycles_m {pen : Penalty} (hc : cycleExpr i = { base := b, m16 := 1 } := by rfl) :
    cycleValue (cycleExpr i) s pen = b + s.m16 := by
  simp [cycleValue_eq, hc]

theorem cycles_x {pen : Penalty} (hc : cycleExpr i = { base := b, x16 := 1 } := by rfl) :
    cycleValue (cycleExpr i) s pen = b + s.x16 := by
  simp [cycleValue_eq, hc]

theorem cycles_m_dl (hc : cycleExpr i = { base := b, m16 := 1, dl := 1 } := by rfl) (hd : r.dl = s.dlPenalty := by rfl) :
    cycleValue (cycleExpr i) s r.penalty = b + s.m16 + s.dl := by
  simp [cycleValue_eq, hc, Resolved.penalty, hd, State.dl_eq]

theorem cycles_x_dl (hc : cycleExpr i = { base := b, x16 := 1, dl := 1 } := by rfl) (hd : r.dl = s.dlPenalty := by rfl) :
    cycleValue (cycleExpr i) s r.penalty = b + s.x16 + s.dl := by
  simp [cycleValue_eq, hc, Resolved.penalty, hd, State.dl_eq]

theorem cycles_m_px (hc : cycleExpr i = { base := b, m16 := 1, px := 1 } := by rfl) :
    cycleValue (cycleExpr i) s r.penalty = b + s.m16 + s.px r := by
  simp [cycleValue_eq, hc, Resolved.penalty, State.px]

theorem cycles_x_px (hc : cycleExpr i = { base := b, x16 := 1, px := 1 } := by rfl) :
    cycleValue (cycleExpr i) s r.penalty = b + s.x16 + s.px r := by
  simp [cycleValue_eq, hc, Resolved.penalty, State.px]

theorem cycles_m_dl_px (hc : cycleExpr i = { base := b, m16 := 1, dl := 1, px := 1 } := by rfl)
    (hd : r.dl = s.dlPenalty := by rfl) : cycleValue (cycleExpr i) s r.penalty = b + s.m16 + s.dl + s.px r := by
  simp [cycleValue_eq, hc, Resolved.penalty, hd, State.dl_eq, State.px]

end

/-! ### A form applies its operation -/

/-- The instruction applies `op` to its operand, which fits the width, and adds its cycles. -/
def ReadsThen (width : State → Width) (op : Word → State → State) : ReadClaim := fun i operand cost =>
  ∀ s : State, exec i s = .next ((op (operand s) s).tick (cost s)) ∧ (width s).trunc (operand s) = operand s

section
variable {i : Instr} {width : State → Width} {op : Word → State → State} {mode : State → Resolved} {n : State → Nat}

theorem trunc_readOp (s : State) (ea : Ea) (w : Width) : w.trunc (s.readOp ea w) = s.readOp ea w := by
  cases w
  · exact word_ext (lo_trunc _ _) (by simp [State.readOp_w8])
  · rfl

theorem readsThen_imm {v : Word} (hn : ∀ s, cycleValue (cycleExpr i) s {} = n s)
    (hexec : ∀ s, exec i s = immForm i (width s) v op s := by intro s; rfl) :
    (ReadsThen width op).imm i (fun s => (width s).trunc v) n := fun s =>
  ⟨(hexec s).trans (finish_charge _ (hn s)), trunc_trunc _ _⟩

theorem readsThen_memA (hn : ∀ s, cycleValue (cycleExpr i) s (mode s).penalty = n s)
    (hexec : ∀ s, exec i s = readForm i s.wA (mode s) op s := by intro s; rfl) :
    (ReadsThen State.wA op).mem i readsA mode n := fun s =>
  ⟨(hexec s).trans (finish_charge _ (hn s)), trunc_readOp _ _ _⟩

theorem readsThen_memX (hn : ∀ s, cycleValue (cycleExpr i) s (mode s).penalty = n s)
    (hexec : ∀ s, exec i s = readForm i s.wX (mode s) op s := by intro s; rfl) :
    (ReadsThen State.wX op).mem i readsX mode n := fun s =>
  ⟨(hexec s).trans (finish_charge _ (hn s)), trunc_readOp _ _ _⟩

end

/-- The seven families of fifteen forms (R171, R194 to R199), each with its operation. -/
theorem accumulatorReads_readsThen :
    accumulatorReads .ldaImm .ldaDp .ldaDpX .ldaAbs .ldaAbsX .ldaAbsY .ldaLong .ldaLongX .ldaDpInd .ldaDpXInd .ldaDpIndY
      .ldaDpIndLong .ldaDpIndLongY .ldaSr .ldaSrIndY (ReadsThen State.wA loadA) ∧
    accumulatorReads .adcImm .adcDp .adcDpX .adcAbs .adcAbsX .adcAbsY .adcLong .adcLongX .adcDpInd .adcDpXInd .adcDpIndY
      .adcDpIndLong .adcDpIndLongY .adcSr .adcSrIndY (ReadsThen State.wA addA) ∧
    accumulatorReads .sbcImm .sbcDp .sbcDpX .sbcAbs .sbcAbsX .sbcAbsY .sbcLong .sbcLongX .sbcDpInd .sbcDpXInd .sbcDpIndY
      .sbcDpIndLong .sbcDpIndLongY .sbcSr .sbcSrIndY (ReadsThen State.wA subA) ∧
    accumulatorReads .andImm .andDp .andDpX .andAbs .andAbsX .andAbsY .andLong .andLongX .andDpInd .andDpXInd .andDpIndY
      .andDpIndLong .andDpIndLongY .andSr .andSrIndY (ReadsThen State.wA andA) ∧
    accumulatorReads .oraImm .oraDp .oraDpX .oraAbs .oraAbsX .oraAbsY .oraLong .oraLongX .oraDpInd .oraDpXInd .oraDpIndY
      .oraDpIndLong .oraDpIndLongY .oraSr .oraSrIndY (ReadsThen State.wA oraA) ∧
    accumulatorReads .eorImm .eorDp .eorDpX .eorAbs .eorAbsX .eorAbsY .eorLong .eorLongX .eorDpInd .eorDpXInd .eorDpIndY
      .eorDpIndLong .eorDpIndLongY .eorSr .eorSrIndY (ReadsThen State.wA eorA) ∧
    accumulatorReads .cmpImm .cmpDp .cmpDpX .cmpAbs .cmpAbsX .cmpAbsY .cmpLong .cmpLongX .cmpDpInd .cmpDpXInd .cmpDpIndY
      .cmpDpIndLong .cmpDpIndLongY .cmpSr .cmpSrIndY (ReadsThen State.wA cmpA) := by
  refine ⟨?_, ?_, ?_, ?_, ?_, ?_, ?_⟩ <;> exact
    ⟨fun _ => readsThen_imm fun _ => cycles_m,
      fun _ => readsThen_memA fun _ => cycles_m_dl,
      fun _ => readsThen_memA fun _ => cycles_m_dl,
      fun _ => readsThen_memA fun _ => cycles_m,
      fun _ => readsThen_memA fun _ => cycles_m_px,
      fun _ => readsThen_memA fun _ => cycles_m_px,
      fun _ => readsThen_memA fun _ => cycles_m,
      fun _ => readsThen_memA fun _ => cycles_m,
      fun _ => readsThen_memA fun _ => cycles_m_dl,
      fun _ => readsThen_memA fun _ => cycles_m_dl,
      fun _ => readsThen_memA fun _ => cycles_m_dl_px,
      fun _ => readsThen_memA fun _ => cycles_m_dl,
      fun _ => readsThen_memA fun _ => cycles_m_dl,
      fun _ => readsThen_memA fun _ => cycles_m,
      fun _ => readsThen_memA fun _ => cycles_m⟩

/-- A claim that follows from another follows for all fifteen forms. -/
theorem accumulatorReads_mono {imm : Word → Instr} {dp dpX : Byte → Instr} {absM absX absY : Word → Instr}
    {long longX : Addr → Instr} {dpInd dpXInd dpIndY dpIndLong dpIndLongY sr srIndY : Byte → Instr}
    {claim claim' : ReadClaim} (h : ∀ {i operand cost}, claim i operand cost → claim' i operand cost)
    (hc : accumulatorReads imm dp dpX absM absX absY long longX dpInd dpXInd dpIndY dpIndLong dpIndLongY sr srIndY claim) :
    accumulatorReads imm dp dpX absM absX absY long longX dpInd dpXInd dpIndY dpIndLong dpIndLongY sr srIndY claim' := by
  obtain ⟨h1, h2, h3, h4, h5, h6, h7, h8, h9, h10, h11, h12, h13, h14, h15⟩ := hc
  exact ⟨fun v => h (h1 v), fun o => h (h2 o), fun o => h (h3 o), fun a => h (h4 a), fun a => h (h5 a), fun a => h (h6 a),
    fun a => h (h7 a), fun a => h (h8 a), fun o => h (h9 o), fun o => h (h10 o), fun o => h (h11 o), fun o => h (h12 o),
    fun o => h (h13 o), fun o => h (h14 o), fun o => h (h15 o)⟩

/-! ### Loads -/

section
variable {s t : State} {w : Width} {v : Word} {fs : List Flag}

/-- N and Z are seen through P only. -/
theorem NZof.of_p (hp : t.p = s.p) (h : NZof s w v) : NZof t w v := by
  simpa only [NZof, State.flag_congr hp] using h

/-- The flags kept are seen through P only. -/
theorem FlagsKept.of_p {u : State} (hp : u.p = t.p) (h : FlagsKept s t fs) : FlagsKept s u fs := fun f hf =>
  (State.flag_congr hp f).trans (h f hf)

theorem NZof_tick_setNZ (s : State) (w : Width) (v : Word) (n : Nat) : NZof ((s.setNZ w v).tick n) w v :=
  (NZof_setNZ s w v).of_p rfl

theorem flagsKept_tick_setNZ (hp : t.p = s.p) (w : Width) (v : Word) (n : Nat) :
    FlagsKept s ((t.setNZ w v).tick n) [.n, .z] := fun f hf =>
  (flagsKept_setNZ t w v f hf).trans (State.flag_congr hp f)

end

/-- A at the active width: at width 8 the low byte, A.h kept. -/
theorem State.setAcc_wA_a (s : State) (v : Word) :
    (s.setAcc s.wA v).a = if s.flag .m then word (lo v) (hi s.a) else v := by
  unfold State.wA
  cases s.flag .m <;> rfl

/-- Settles O37: `loadA` at the operand of each of the fifteen forms. -/
theorem ldaLoads : Obligations.LdaLoads := by
  obtain ⟨hlda, -⟩ := accumulatorReads_readsThen
  refine accumulatorReads_mono (fun h s => ?_) hlda
  exact ⟨_, (h s).1, rfl, State.busRead_congr rfl rfl, State.setAcc_wA_a s _, NZof_tick_setNZ _ _ _ _,
    flagsKept_tick_setNZ rfl _ _ _⟩

/-- A value that fits an 8-bit index has no high byte. -/
theorem hi_of_trunc_wX {s : State} {v : Word} (hv : s.wX.trunc v = v) (hx : s.flag .x = true) : hi v = 0x00 := by
  rw [← hv]
  exact hi_trunc_wX s v hx

theorem ldxForms_readsThen : ldxForms (ReadsThen State.wX loadX) :=
  ⟨fun _ => readsThen_imm fun _ => cycles_x, fun _ => readsThen_memX fun _ => cycles_x_dl,
    fun _ => readsThen_memX fun _ => cycles_x_dl, fun _ => readsThen_memX fun _ => cycles_x,
    fun _ => readsThen_memX fun _ => cycles_x_px⟩

theorem ldyForms_readsThen : ldyForms (ReadsThen State.wX loadY) :=
  ⟨fun _ => readsThen_imm fun _ => cycles_x, fun _ => readsThen_memX fun _ => cycles_x_dl,
    fun _ => readsThen_memX fun _ => cycles_x_dl, fun _ => readsThen_memX fun _ => cycles_x,
    fun _ => readsThen_memX fun _ => cycles_x_px⟩

section
variable {claim claim' : ReadClaim}

theorem ldxForms_mono (h : ∀ {i operand cost}, claim i operand cost → claim' i operand cost) (hc : ldxForms claim) :
    ldxForms claim' := by
  obtain ⟨himm, hdp, hdpY, habs, habsY⟩ := hc
  exact ⟨fun v => h (himm v), fun o => h (hdp o), fun o => h (hdpY o), fun a => h (habs a), fun a => h (habsY a)⟩

theorem ldyForms_mono (h : ∀ {i operand cost}, claim i operand cost → claim' i operand cost) (hc : ldyForms claim) :
    ldyForms claim' := by
  obtain ⟨himm, hdp, hdpX, habs, habsX⟩ := hc
  exact ⟨fun v => h (himm v), fun o => h (hdp o), fun o => h (hdpX o), fun a => h (habs a), fun a => h (habsX a)⟩

end

/-- Settles O38: `loadX` and `loadY` at the operand of each of the ten forms. -/
theorem ldxLdyLoad : Obligations.LdxLdyLoad := by
  refine ⟨ldxForms_mono (fun h s => ?_) ldxForms_readsThen, ldyForms_mono (fun h s => ?_) ldyForms_readsThen⟩
  · have hhi := hi_of_trunc_wX (h s).2
    exact ⟨_, (h s).1, rfl, State.busRead_congr rfl rfl, hhi, NZof_tick_setNZ _ _ _ _, flagsKept_tick_setNZ rfl _ _ _⟩
  · have hhi := hi_of_trunc_wX (h s).2
    exact ⟨_, (h s).1, rfl, State.busRead_congr rfl rfl, hhi, NZof_tick_setNZ _ _ _ _, flagsKept_tick_setNZ rfl _ _ _⟩

/-! ### Arithmetic and logic -/

theorem State.setSum_flag (s : State) (w : Width) (o : AluOut) (f : Flag) :
    (s.setSum w o).flag f = if f = .z then decide (w.trunc o.r = 0) else if f = .n then w.msb o.r
      else if f = .v then o.v else if f = .c then o.c else s.flag f := by
  simp [State.setSum]

/-- What every form of an addition does, once its operation writes the adder's output. -/
theorem setSum_claim {s t : State} {n : Nat} {o : AluOut} (ht : t = (s.setSum s.wA o).tick n) :
    t = { s.after n with a := t.a, p := t.p } ∧ (∀ b : Addr, t.busRead b = s.busRead b) ∧
      t.a = (if s.flag .m then word (lo o.r) (hi s.a) else o.r) ∧ t.flag .c = o.c ∧ t.flag .v = o.v ∧
      NZof t s.wA o.r ∧ FlagsKept s t [.n, .z, .c, .v] := by
  subst ht
  have hflag : ∀ f, ((s.setSum s.wA o).tick n).flag f = (s.setSum s.wA o).flag f := fun _ => rfl
  refine ⟨rfl, State.busRead_congr rfl rfl, State.setAcc_wA_a s _, ?_, ?_, NZof_of_flags ?_ ?_, fun f hf => ?_⟩
  · simp [State.setSum_flag]
  · simp [State.setSum_flag]
  · simp [State.setSum_flag]
  · simp [State.setSum_flag]
  · simp only [List.mem_cons, List.not_mem_nil, or_false, not_or] at hf
    obtain ⟨hn, hz, hc, hv⟩ := hf
    simp [State.setSum_flag, hn, hz, hc, hv]

/-- Settles O40: `addA` and `subA` write the output of the adder that P.D selects. -/
theorem adcSbcAdd : Obligations.AdcSbcAdd := by
  obtain ⟨-, hadc, hsbc, -⟩ := accumulatorReads_readsThen
  refine ⟨accumulatorReads_mono (fun h s => ?_) hadc, accumulatorReads_mono (fun h s => ?_) hsbc⟩
  · obtain ⟨hframe, hmem, hout⟩ := setSum_claim (s := s) rfl
    refine ⟨_, (h s).1, hframe, hmem, _, ?_, hout⟩
    split <;> rfl
  · obtain ⟨hframe, hmem, hout⟩ := setSum_claim (s := s) rfl
    refine ⟨_, (h s).1, hframe, hmem, _, ?_, hout⟩
    split <;> rfl

section
variable (w : Width) (a m : Word)

theorem trunc_and_trunc : w.trunc (w.trunc a &&& m) = w.trunc (a &&& m) :=
  BitVec.eq_of_getLsbD_eq fun k _ => by
    simp only [getLsbD_trunc, BitVec.getLsbD_and, Bool.and_assoc, Bool.and_self_left]

theorem trunc_or_trunc : w.trunc (w.trunc a ||| m) = w.trunc (a ||| m) :=
  BitVec.eq_of_getLsbD_eq fun k _ => by
    simp only [getLsbD_trunc, BitVec.getLsbD_or]
    cases decide (k < w.bits) <;> simp

theorem trunc_xor_trunc : w.trunc (w.trunc a ^^^ m) = w.trunc (a ^^^ m) :=
  BitVec.eq_of_getLsbD_eq fun k _ => by
    simp only [getLsbD_trunc, BitVec.getLsbD_xor]
    cases decide (k < w.bits) <;> simp

end

/-- What every form of a bitwise operation does; A at the width goes in, but the whole of A would give the same. -/
theorem logicA_claim {op : Word → Word → Word} (hop : ∀ w a m, Width.trunc w (op (w.trunc a) m) = w.trunc (op a m))
    {s t : State} {n : Nat} {m : Word} (ht : t = (logicA op m s).tick n) :
    t = { s.after n with a := t.a, p := t.p } ∧ (∀ b : Addr, t.busRead b = s.busRead b) ∧
      t.a = (if s.flag .m then word (lo (op s.a m)) (hi s.a) else op s.a m) ∧ NZof t s.wA (op s.a m) ∧
      FlagsKept s t [.n, .z] := by
  subst ht
  refine ⟨rfl, State.busRead_congr rfl rfl, ?_, ?_, flagsKept_tick_setNZ rfl _ _ _⟩
  · refine (State.setAcc_wA_a s _).trans ?_
    by_cases hm : s.flag .m = true
    · have hlo := congrArg lo (hop .w8 s.a m)
      simp only [lo_trunc] at hlo
      rw [if_pos hm, if_pos hm, State.wA_eq_w8 hm, hlo]
    · rw [if_neg hm, if_neg hm, State.wA, if_neg hm, trunc_w16]
  · rw [← NZof_trunc_iff, ← hop, NZof_trunc_iff]
    exact NZof_tick_setNZ _ _ _ _

/-- Settles O41: the three bitwise operations at the operand of each of the forty-five forms. -/
theorem logicInstructions : Obligations.LogicInstructions := by
  obtain ⟨-, -, -, hand, hora, heor, -⟩ := accumulatorReads_readsThen
  exact ⟨accumulatorReads_mono (fun h s => ⟨_, (h s).1, logicA_claim trunc_and_trunc rfl⟩) hand,
    accumulatorReads_mono (fun h s => ⟨_, (h s).1, logicA_claim trunc_or_trunc rfl⟩) hora,
    accumulatorReads_mono (fun h s => ⟨_, (h s).1, logicA_claim trunc_xor_trunc rfl⟩) heor⟩

/-! ### Comparisons and bit tests -/

theorem indexCompares_readsThen : indexCompares .cpxImm .cpxDp .cpxAbs (ReadsThen State.wX cpX) ∧
    indexCompares .cpyImm .cpyDp .cpyAbs (ReadsThen State.wX cpY) := by
  constructor <;> exact ⟨fun _ => readsThen_imm fun _ => cycles_x, fun _ => readsThen_memX fun _ => cycles_x_dl,
    fun _ => readsThen_memX fun _ => cycles_x⟩

theorem indexCompares_mono {imm : Word → Instr} {dp : Byte → Instr} {absM : Word → Instr} {claim claim' : ReadClaim}
    (h : ∀ {i operand cost}, claim i operand cost → claim' i operand cost) (hc : indexCompares imm dp absM claim) :
    indexCompares imm dp absM claim' := by
  obtain ⟨himm, hdp, habs⟩ := hc
  exact ⟨fun v => h (himm v), fun o => h (hdp o), fun a => h (habs a)⟩

theorem toNat_lt_of_trunc {w : Width} {v : Word} (hv : w.trunc v = v) : v.toNat < 2 ^ w.bits := by
  rw [← hv, trunc_toNat]
  exact Nat.mod_lt _ (Nat.two_pow_pos _)

/-- The flags of a comparison as arithmetic, for a register and an operand of the width. -/
theorem compare_claim {s t : State} {w : Width} {reg m : Word} {n : Nat} (hm : w.trunc m = m)
    (ht : t = (s.compare w (w.trunc reg) m).tick n) :
    t = { s.after n with p := t.p } ∧ (∀ b : Addr, t.busRead b = s.busRead b) ∧
      ∃ r : Nat, r = reg.toNat % 2 ^ w.bits ∧ (t.flag .c = true ↔ m.toNat ≤ r) ∧ (t.flag .z = true ↔ r = m.toNat) ∧
        (t.flag .n = true ↔ 2 ^ (w.bits - 1) ≤ (r + 2 ^ w.bits - m.toNat) % 2 ^ w.bits) ∧ FlagsKept s t [.n, .z, .c] := by
  subst ht
  have hmlt := toNat_lt_of_trunc hm
  have hrlt : reg.toNat % 2 ^ w.bits < 2 ^ w.bits := Nat.mod_lt _ (Nat.two_pow_pos _)
  have hdiff : (w.trunc (w.trunc reg - m)).toNat = (reg.toNat % 2 ^ w.bits + 2 ^ w.bits - m.toNat) % 2 ^ w.bits := by
    rw [trunc_toNat, BitVec.toNat_sub, trunc_toNat]
    cases w <;> simp only [Width.bits] at hmlt hrlt ⊢ <;> omega
  have hlt : (w.trunc (w.trunc reg - m)).toNat < 2 ^ w.bits := hdiff ▸ Nat.mod_lt _ (Nat.two_pow_pos _)
  refine ⟨rfl, State.busRead_congr rfl rfl, _, rfl, ?_, ?_, ?_, fun f hf => ?_⟩
  · simp [trunc_toNat]
  · simp only [State.flag_tick, State.flag_compare, ↓reduceIte, decide_eq_true_iff, trunc_eq_zero, hdiff, Nat.mod_mod]
    generalize reg.toNat % 2 ^ w.bits = r at hrlt
    cases w <;> simp only [Width.bits] at hmlt hrlt ⊢ <;> omega
  · simp [Width.msb_eq_decide hlt, hdiff]
  · simp only [List.mem_cons, List.not_mem_nil, or_false, not_or] at hf
    obtain ⟨hn, hz, hc⟩ := hf
    simp [hn, hz, hc]

/-- Settles O42: `compare` of A, X and Y with the operand of each of the twenty-one forms. -/
theorem compareInstructions : Obligations.CompareInstructions := by
  obtain ⟨-, -, -, -, -, -, hcmp⟩ := accumulatorReads_readsThen
  obtain ⟨hcpx, hcpy⟩ := indexCompares_readsThen
  exact ⟨accumulatorReads_mono (fun h s => ⟨_, (h s).1, compare_claim (h s).2 rfl⟩) hcmp,
    indexCompares_mono (fun h s => ⟨_, (h s).1, compare_claim (h s).2 rfl⟩) hcpx,
    indexCompares_mono (fun h s => ⟨_, (h s).1, compare_claim (h s).2 rfl⟩) hcpy⟩

theorem bitMemoryForms_readsThen : bitMemoryForms (ReadsThen State.wA bitMemA) :=
  ⟨fun _ => readsThen_memA fun _ => cycles_m_dl, fun _ => readsThen_memA fun _ => cycles_m_dl,
    fun _ => readsThen_memA fun _ => cycles_m, fun _ => readsThen_memA fun _ => cycles_m_px⟩

theorem bitMemoryForms_mono {claim claim' : ReadClaim}
    (h : ∀ {i operand cost}, claim i operand cost → claim' i operand cost) (hc : bitMemoryForms claim) :
    bitMemoryForms claim' := by
  obtain ⟨hdp, hdpX, habs, habsX⟩ := hc
  exact ⟨fun o => h (hdp o), fun o => h (hdpX o), fun a => h (habs a), fun a => h (habsX a)⟩

/-- The test of A at a width with an operand of that width looks at the low bits of both. -/
theorem trunc_and_eq_zero_iff {w : Width} {a m : Word} (hm : w.trunc m = m) :
    w.trunc a &&& m = 0 ↔ (a &&& m).toNat % 2 ^ w.bits = 0 := by
  have h : w.trunc a &&& m = w.trunc (a &&& m) := BitVec.eq_of_getLsbD_eq fun k _ => by
    rw [← hm]
    simp only [getLsbD_trunc, BitVec.getLsbD_and]
    cases decide (k < w.bits) <;> simp
  rw [h, trunc_eq_zero]

/-- Settles O43: `bitMemA` at the operand of each memory form, and `bitImmA` for the immediate. -/
theorem bitTests : Obligations.BitTests := by
  refine ⟨bitMemoryForms_mono (fun {i operand cost} h s => ?_) bitMemoryForms_readsThen, fun v s => ?_⟩
  · refine ⟨_, (h s).1, rfl, State.busRead_congr rfl rfl, ?_, ?_, ?_, fun f hf => ?_⟩
    · rw [← trunc_and_eq_zero_iff (h s).2]
      simp [bitMemA, bitImmA]
    · simp [bitMemA, Width.msb]
    · simp [bitMemA]
    · simp only [List.mem_cons, List.not_mem_nil, or_false, not_or] at hf
      obtain ⟨hn, hv, hz⟩ := hf
      simp [bitMemA, bitImmA, hn, hv, hz]
  · have hexec : (ReadsThen State.wA bitImmA).imm (.bitImm v) (fun s => s.wA.trunc v) fun s => 2 + s.m16 :=
      readsThen_imm fun _ => cycles_m
    refine ⟨_, (hexec s).1, rfl, State.busRead_congr rfl rfl, ?_, fun f hf => ?_⟩
    · rw [BitVec.and_comm, ← trunc_eq_zero, ← trunc_and_trunc, BitVec.and_comm, trunc_eq_zero,
        ← trunc_and_eq_zero_iff (hexec s).2]
      simp [bitImmA]
    · rw [List.mem_singleton] at hf
      simp [bitImmA, hf]

end Sys2Proof.Machine
end

section
/-! PROOFS. The forms that write memory (41_load_store.md R174 to R177, 43_rmw.md R220 to R232): stores, and the
read-modify-writes as arithmetic, in memory, in the accumulator and in the index registers. -/

namespace Sys2Proof.Machine

/-! ### A form that writes at an address -/

theorem State.writeOp_eq_with_mem (s : State) (ea : Ea) (w : Width) (v : Word) :
    s.writeOp ea w v = { s with mem := (s.writeOp ea w v).mem } := by
  rcases ea with ⟨addr, wrap⟩
  cases w <;> cases wrap <;> rfl

/-- The instruction applies `op` at its effective address and adds its cycles. -/
def WritesAt (op : Ea → State → State) : AddrClaim := fun i ea cost =>
  ∀ s : State, exec i s = .next ((op (ea s) s).tick (cost s))

theorem writesAt_at {i : Instr} {op : Ea → State → State} {mode : State → Resolved} {n : State → Nat}
    (hn : ∀ s, cycleValue (cycleExpr i) s (mode s).penalty = n s)
    (hexec : ∀ s, exec i s = finish i s (op (mode s).ea s) (mode s).penalty := by intro s; rfl) :
    (WritesAt op).at i mode n := fun s => (hexec s).trans (finish_charge _ (hn s))

/-! ### Stores -/

/-- A store of a value at a width. -/
def storeOp (width : State → Width) (value : State → Word) (ea : Ea) (s : State) : State :=
  s.writeOp ea (width s) (value s)

/-- What every form of a store does. -/
theorem storeOp_claim {i : Instr} {width : State → Width} {value : State → Word} {ea : State → Ea} {cost : State → Nat}
    (h : WritesAt (storeOp width value) i ea cost) (s : State) :
    ∃ t : State, exec i s = .next t ∧ t = { s.after (cost s) with mem := t.mem } ∧
      Stores s t ((ea s).bytes (width s) (value s)) := by
  refine ⟨_, h s, ?_, (stores_writeOp s _ _ _).congr rfl rfl⟩
  rw [storeOp, State.writeOp_eq_with_mem]
  rfl

theorem staForms_storeOp : staForms (WritesAt (storeOp State.wA fun s => s.a)) :=
  ⟨fun _ => writesAt_at fun _ => cycles_m_dl, fun _ => writesAt_at fun _ => cycles_m_dl,
    fun _ => writesAt_at fun _ => cycles_m, fun _ => writesAt_at fun _ => cycles_m, fun _ => writesAt_at fun _ => cycles_m,
    fun _ => writesAt_at fun _ => cycles_m, fun _ => writesAt_at fun _ => cycles_m, fun _ => writesAt_at fun _ => cycles_m_dl,
    fun _ => writesAt_at fun _ => cycles_m_dl, fun _ => writesAt_at fun _ => cycles_m_dl,
    fun _ => writesAt_at fun _ => cycles_m_dl, fun _ => writesAt_at fun _ => cycles_m_dl,
    fun _ => writesAt_at fun _ => cycles_m, fun _ => writesAt_at fun _ => cycles_m⟩

theorem stzForms_storeOp : stzForms (WritesAt (storeOp State.wA fun _ => 0x0000)) :=
  ⟨fun _ => writesAt_at fun _ => cycles_m_dl, fun _ => writesAt_at fun _ => cycles_m_dl,
    fun _ => writesAt_at fun _ => cycles_m, fun _ => writesAt_at fun _ => cycles_m⟩

theorem stxForms_storeOp : stxForms (WritesAt (storeOp State.wX fun s => s.x)) :=
  ⟨fun _ => writesAt_at fun _ => cycles_x_dl, fun _ => writesAt_at fun _ => cycles_x_dl,
    fun _ => writesAt_at fun _ => cycles_x⟩

theorem styForms_storeOp : styForms (WritesAt (storeOp State.wX fun s => s.y)) :=
  ⟨fun _ => writesAt_at fun _ => cycles_x_dl, fun _ => writesAt_at fun _ => cycles_x_dl,
    fun _ => writesAt_at fun _ => cycles_x⟩

section
variable {claim claim' : AddrClaim}

theorem staForms_mono (h : ∀ {i ea cost}, claim i ea cost → claim' i ea cost) (hc : staForms claim) : staForms claim' := by
  obtain ⟨h1, h2, h3, h4, h5, h6, h7, h8, h9, h10, h11, h12, h13, h14⟩ := hc
  exact ⟨fun o => h (h1 o), fun o => h (h2 o), fun a => h (h3 a), fun a => h (h4 a), fun a => h (h5 a), fun a => h (h6 a),
    fun a => h (h7 a), fun o => h (h8 o), fun o => h (h9 o), fun o => h (h10 o), fun o => h (h11 o), fun o => h (h12 o),
    fun o => h (h13 o), fun o => h (h14 o)⟩

theorem stzForms_mono (h : ∀ {i ea cost}, claim i ea cost → claim' i ea cost) (hc : stzForms claim) : stzForms claim' := by
  obtain ⟨hdp, hdpX, habs, habsX⟩ := hc
  exact ⟨fun o => h (hdp o), fun o => h (hdpX o), fun a => h (habs a), fun a => h (habsX a)⟩

theorem stxForms_mono (h : ∀ {i ea cost}, claim i ea cost → claim' i ea cost) (hc : stxForms claim) : stxForms claim' := by
  obtain ⟨hdp, hdpY, habs⟩ := hc
  exact ⟨fun o => h (hdp o), fun o => h (hdpY o), fun a => h (habs a)⟩

theorem styForms_mono (h : ∀ {i ea cost}, claim i ea cost → claim' i ea cost) (hc : styForms claim) : styForms claim' := by
  obtain ⟨hdp, hdpX, habs⟩ := hc
  exact ⟨fun o => h (hdp o), fun o => h (hdpX o), fun a => h (habs a)⟩

theorem rmwForms_mono {dp dpX : Byte → Instr} {absM absX : Word → Instr}
    (h : ∀ {i ea cost}, claim i ea cost → claim' i ea cost) (hc : rmwForms dp dpX absM absX claim) :
    rmwForms dp dpX absM absX claim' := by
  obtain ⟨hdp, hdpX, habs, habsX⟩ := hc
  exact ⟨fun o => h (hdp o), fun o => h (hdpX o), fun a => h (habs a), fun a => h (habsX a)⟩

theorem bitSetForms_mono {dp : Byte → Instr} {absM : Word → Instr}
    (h : ∀ {i ea cost}, claim i ea cost → claim' i ea cost) (hc : bitSetForms dp absM claim) :
    bitSetForms dp absM claim' := by
  obtain ⟨hdp, habs⟩ := hc
  exact ⟨fun o => h (hdp o), fun a => h (habs a)⟩

end

/-- Settles O39: `storeOp` at the address of each of the twenty-four forms. -/
theorem storesStore : Obligations.StoresStore :=
  ⟨staForms_mono storeOp_claim staForms_storeOp, stzForms_mono storeOp_claim stzForms_storeOp,
    stxForms_mono storeOp_claim stxForms_storeOp, styForms_mono storeOp_claim styForms_storeOp⟩

/-! ### The operations as arithmetic (R221 to R226) -/

/-- The operation writes P only. -/
def WritesPOnly (f : Width → Word → State → Word × State) : Prop :=
  ∀ (w : Width) (v : Word) (s : State), (f w v s).2 = { s with p := (f w v s).2.p }

/-- On an operand of the width, the operation gives the result and the flags of `spec`. -/
def Meets (f : Width → Word → State → Word × State) (spec : RmwSpec) : Prop :=
  ∀ (w : Width) (v : Word) (s : State), w.trunc v = v →
    (f w v s).1 = BitVec.ofNat 16 (spec w.bits v.toNat (s.flag .c).toNat).1 ∧ NZof (f w v s).2 w (f w v s).1 ∧
      (f w v s).2.flag .c = (spec w.bits v.toNat (s.flag .c).toNat).2.getD (s.flag .c) ∧
      FlagsKept s (f w v s).2 [.n, .z, .c]

/-- An operation that writes the carry `c`, and N and Z of its result `r`. -/
theorem flags_putFlag_setNZ (s : State) (c : Bool) (w : Width) (r : Word) :
    NZof ((s.putFlag .c c).setNZ w r) w r ∧ ((s.putFlag .c c).setNZ w r).flag .c = c ∧
      FlagsKept s ((s.putFlag .c c).setNZ w r) [.n, .z, .c] := by
  refine ⟨NZof_setNZ _ _ _, by simp, fun f hf => ?_⟩
  simp only [List.mem_cons, List.not_mem_nil, or_false, not_or] at hf
  obtain ⟨hn, hz, hc⟩ := hf
  simp [hn, hz, hc]

/-- An operation that keeps the carry. -/
theorem flags_setNZ (s : State) (w : Width) (r : Word) :
    NZof (s.setNZ w r) w r ∧ (s.setNZ w r).flag .c = s.flag .c ∧ FlagsKept s (s.setNZ w r) [.n, .z, .c] := by
  refine ⟨NZof_setNZ _ _ _, by simp, fun f hf => flagsKept_setNZ s w r f fun h => hf ?_⟩
  simp only [List.mem_cons, List.not_mem_nil, or_false] at h ⊢
  exact h.elim .inl fun hz => .inr (.inl hz)

section
variable {w : Width} {v : Word}

/-- The bit shifted out at the top. -/
theorem msb_eq_decide_double (hv : w.trunc v = v) : w.msb v = decide (2 ^ w.bits ≤ 2 * v.toNat) := by
  rw [Width.msb_eq_decide (toNat_lt_of_trunc hv), decide_eq_decide]
  cases w <;> simp only [Width.bits] <;> omega

/-- The bit shifted out at the bottom. -/
theorem getLsbD_zero_eq_decide (v : Word) : v.getLsbD 0 = decide (v.toNat % 2 = 1) := by
  rw [BitVec.getLsbD, Nat.testBit_zero]

/-- A bit put in below a value shifted up. -/
theorem shiftLeft_or_toNat (v : Word) (c : Bool) :
    (v <<< 1 ||| BitVec.ofNat 16 c.toNat).toNat = (2 * v.toNat + c.toNat) % 65536 := by
  have hc := c.toNat_lt
  have hv : v.toNat <<< 1 % 2 ^ 16 = (v.toNat % 32768) <<< 1 := by
    rw [Nat.shiftLeft_eq, Nat.shiftLeft_eq]
    omega
  rw [BitVec.toNat_or, BitVec.toNat_shiftLeft, BitVec.toNat_ofNat, Nat.mod_eq_of_lt (by omega : c.toNat < 2 ^ 16), hv,
    ← Nat.shiftLeft_add_eq_or_of_lt (i := 1) hc, Nat.shiftLeft_eq]
  omega

/-- A bit put in above a value of the width shifted down. -/
theorem ushiftRight_or_toNat (hv : v.toNat < 2 ^ w.bits) (c : Bool) :
    (v >>> 1 ||| BitVec.ofNat 16 c.toNat <<< (w.bits - 1)).toNat = v.toNat / 2 + c.toNat * 2 ^ (w.bits - 1) := by
  have hc := c.toNat_lt
  have hhalf : v.toNat / 2 < 2 ^ (w.bits - 1) := by
    cases w <;> simp only [Width.bits] at hv ⊢ <;> omega
  have hbit : c.toNat * 2 ^ (w.bits - 1) < 2 ^ 16 := by
    cases w <;> simp only [Width.bits] <;> omega
  rw [BitVec.or_comm, BitVec.toNat_or, BitVec.toNat_shiftLeft, BitVec.toNat_ushiftRight, BitVec.toNat_ofNat,
    Nat.mod_eq_of_lt (by omega : c.toNat < 2 ^ 16), Nat.shiftLeft_eq, Nat.mod_eq_of_lt hbit,
    Nat.shiftRight_eq_div_pow, Nat.pow_one, ← Nat.shiftLeft_eq, ← Nat.shiftLeft_add_eq_or_of_lt hhalf, Nat.shiftLeft_eq,
    Nat.add_comm]

end

theorem asl_meets : Meets asl aslSpec := fun w v s hv => by
  refine ⟨BitVec.eq_of_toNat_eq ?_, ?_⟩
  · rw [asl, aslSpec, trunc_toNat, BitVec.toNat_shiftLeft, BitVec.toNat_ofNat, Nat.shiftLeft_eq]
    cases w <;> simp only [Width.bits] <;> omega
  · rw [aslSpec, Option.getD_some, ← msb_eq_decide_double hv]
    exact flags_putFlag_setNZ _ _ _ _

theorem lsr_meets : Meets lsr lsrSpec := fun w v s _ => by
  refine ⟨BitVec.eq_of_toNat_eq ?_, ?_⟩
  · rw [lsr, lsrSpec, BitVec.toNat_ushiftRight, BitVec.toNat_ofNat, Nat.shiftRight_eq_div_pow]
    omega
  · rw [lsrSpec, Option.getD_some, ← getLsbD_zero_eq_decide]
    exact flags_putFlag_setNZ _ _ _ _

theorem rol_meets : Meets rol rolSpec := fun w v s hv => by
  refine ⟨BitVec.eq_of_toNat_eq ?_, ?_⟩
  · rw [rol, rolSpec, trunc_toNat, shiftLeft_or_toNat, BitVec.toNat_ofNat]
    cases w <;> simp only [Width.bits] <;> omega
  · rw [rolSpec, Option.getD_some, ← msb_eq_decide_double hv]
    exact flags_putFlag_setNZ _ _ _ _

theorem ror_meets : Meets ror rorSpec := fun w v s hv => by
  refine ⟨BitVec.eq_of_toNat_eq ?_, ?_⟩
  · have hlt := toNat_lt_of_trunc hv
    have hc := (s.flag .c).toNat_le
    rw [ror, rorSpec, ushiftRight_or_toNat hlt, BitVec.toNat_ofNat]
    cases w <;> simp only [Width.bits] at hlt ⊢ <;> omega
  · rw [rorSpec, Option.getD_some, ← getLsbD_zero_eq_decide]
    exact flags_putFlag_setNZ _ _ _ _

theorem incr_meets : Meets incr incSpec := fun w v s _ => by
  refine ⟨BitVec.eq_of_toNat_eq ?_, flags_setNZ _ _ _⟩
  have h1 : (1 : Word).toNat = 1 := rfl
  rw [incr, incSpec, trunc_toNat, BitVec.toNat_add, h1, BitVec.toNat_ofNat]
  cases w
  · simp only [Width.bits]
    omega
  · rfl

theorem decr_meets : Meets decr decSpec := fun w v s _ => by
  refine ⟨BitVec.eq_of_toNat_eq ?_, flags_setNZ _ _ _⟩
  have h1 : (1 : Word).toNat = 1 := rfl
  rw [decr, decSpec, trunc_toNat, BitVec.toNat_sub, h1, BitVec.toNat_ofNat]
  cases w <;> simp only [Width.bits] <;> omega

/-! ### The accumulator and the index registers -/

/-- What the accumulator form of an operation does. -/
theorem accForm_claim {i : Instr} {f : Width → Word → State → Word × State} {spec : RmwSpec}
    (hn : ∀ s, cycleValue (cycleExpr i) s {} = 2) (hf : Meets f spec) (hp : WritesPOnly f)
    (hexec : ∀ s, exec i s = accForm i f s) (s : State) :
    ∃ t : State, exec i s = .next t ∧
      t = { s.after (s.charge i 2) with a := t.a, p := t.p } ∧ (∀ b : Addr, t.busRead b = s.busRead b) ∧
      t.a = (if s.flag .m then word (lo (rmwResult spec s (s.wA.trunc s.a))) (hi s.a)
             else rmwResult spec s (s.wA.trunc s.a)) ∧
      rmwFlags spec s t (s.wA.trunc s.a) := by
  obtain ⟨hr, hnz, hc, hkept⟩ := hf s.wA (s.wA.trunc s.a) s (trunc_trunc _ _)
  have hacc : accNext i f s = ({ s with p := (f s.wA (s.wA.trunc s.a) s).2.p }.setAcc s.wA
      (f s.wA (s.wA.trunc s.a) s).1).tick (s.charge i 2) := by
    rw [accNext, State.charge_eq (hn s), ← hp]
  refine ⟨_, (hexec s).trans (accForm_eq s), ?_, State.busRead_congr ?_ ?_, ?_, ?_⟩
  · rw [hacc]; rfl
  · rw [hacc]; rfl
  · rw [hacc]; rfl
  · rw [hacc, rmwResult, ← hr]
    exact State.setAcc_wA_a s _
  · rw [rmwFlags, rmwResult, ← hr]
    exact ⟨hnz.of_p rfl, hc, hkept.of_p rfl⟩

/-- Settles O44: the six operations meet their arithmetic, in the accumulator form. -/
theorem accumulatorModify : Obligations.AccumulatorModify := by
  simp only [Obligations.AccumulatorModify, List.forall_mem_cons]
  exact ⟨accForm_claim (fun _ => cycles_base) asl_meets (fun _ _ _ => rfl) fun _ => rfl,
    accForm_claim (fun _ => cycles_base) lsr_meets (fun _ _ _ => rfl) fun _ => rfl,
    accForm_claim (fun _ => cycles_base) rol_meets (fun _ _ _ => rfl) fun _ => rfl,
    accForm_claim (fun _ => cycles_base) ror_meets (fun _ _ _ => rfl) fun _ => rfl,
    accForm_claim (fun _ => cycles_base) incr_meets (fun _ _ _ => rfl) fun _ => rfl,
    accForm_claim (fun _ => cycles_base) decr_meets (fun _ _ _ => rfl) fun _ => rfl, by simp⟩

/-- What stepping an index register by `step` makes of its value. -/
theorem trunc_step_toNat (w : Width) (v step : Word) :
    (w.trunc (w.trunc v + step)).toNat = (v.toNat + step.toNat) % 2 ^ w.bits := by
  rw [trunc_toNat, BitVec.toNat_add, trunc_toNat]
  cases w <;> simp only [Width.bits] <;> omega

section
variable {i : Instr} {step : Word} (hn : ∀ s, cycleValue (cycleExpr i) s {} = 2)
include hn

theorem setX_claim (hexec : ∀ s, exec i s = finish i s (s.setX s.wX (s.wX.trunc s.x + step))) (s : State) :
    ∃ t : State, exec i s = .next t ∧ t = { s.after (s.charge i 2) with x := t.x, p := t.p } ∧
      (∀ b : Addr, t.busRead b = s.busRead b) ∧ t.x.toNat = (s.x.toNat + step.toNat) % 2 ^ s.wX.bits ∧ NZof t s.wX t.x ∧
      FlagsKept s t [.n, .z] :=
  ⟨_, (hexec s).trans (finish_charge _ (hn s)), rfl, State.busRead_congr rfl rfl, trunc_step_toNat _ _ _,
    NZof_tick_setNZ _ _ _ _, flagsKept_tick_setNZ rfl _ _ _⟩

theorem setY_claim (hexec : ∀ s, exec i s = finish i s (s.setY s.wX (s.wX.trunc s.y + step))) (s : State) :
    ∃ t : State, exec i s = .next t ∧ t = { s.after (s.charge i 2) with y := t.y, p := t.p } ∧
      (∀ b : Addr, t.busRead b = s.busRead b) ∧ t.y.toNat = (s.y.toNat + step.toNat) % 2 ^ s.wX.bits ∧ NZof t s.wX t.y ∧
      FlagsKept s t [.n, .z] :=
  ⟨_, (hexec s).trans (finish_charge _ (hn s)), rfl, State.busRead_congr rfl rfl, trunc_step_toNat _ _ _,
    NZof_tick_setNZ _ _ _ _, flagsKept_tick_setNZ rfl _ _ _⟩

end

/-- Lowering by 1 is raising by 65535. -/
theorem sub_one_eq_add (v : Word) : v - 1 = v + 65535 := by bv_omega

/-- Settles O46: the four steps of an index register modulo its width. -/
theorem indexStep : Obligations.IndexStep := by
  intro s
  simp only [List.forall_mem_cons, List.not_mem_nil, false_implies, implies_true, and_true]
  refine ⟨⟨setX_claim (step := 1) (fun _ => cycles_base) (fun _ => rfl) s,
      setX_claim (step := 65535) (fun _ => cycles_base) (fun s => ?_) s⟩,
    setY_claim (step := 1) (fun _ => cycles_base) (fun _ => rfl) s,
    setY_claim (step := 65535) (fun _ => cycles_base) (fun s => ?_) s⟩
  · rw [← sub_one_eq_add]; rfl
  · rw [← sub_one_eq_add]; rfl

/-! ### Memory -/

/-- The memory form of a read-modify-write operation. -/
def rmwOp (f : Width → Word → State → Word × State) (ea : Ea) (s : State) : State :=
  (f s.wA (s.readOp ea s.wA) s).2.writeOp ea s.wA (f s.wA (s.readOp ea s.wA) s).1

theorem cycles_2m {i : Instr} {s : State} {b : Nat} {pen : Penalty}
    (hc : cycleExpr i = { base := b, m16 := 2 } := by rfl) : cycleValue (cycleExpr i) s pen = b + 2 * s.m16 := by
  simp [cycleValue_eq, hc]

theorem cycles_2m_dl {i : Instr} {s : State} {r : Resolved} {b : Nat}
    (hc : cycleExpr i = { base := b, m16 := 2, dl := 1 } := by rfl) (hd : r.dl = s.dlPenalty := by rfl) :
    cycleValue (cycleExpr i) s r.penalty = b + 2 * s.m16 + s.dl := by
  simp [cycleValue_eq, hc, Resolved.penalty, hd, State.dl_eq]

theorem rmwForms_rmwOp :
    rmwForms .aslDp .aslDpX .aslAbs .aslAbsX (WritesAt (rmwOp asl)) ∧
    rmwForms .lsrDp .lsrDpX .lsrAbs .lsrAbsX (WritesAt (rmwOp lsr)) ∧
    rmwForms .rolDp .rolDpX .rolAbs .rolAbsX (WritesAt (rmwOp rol)) ∧
    rmwForms .rorDp .rorDpX .rorAbs .rorAbsX (WritesAt (rmwOp ror)) ∧
    rmwForms .incDp .incDpX .incAbs .incAbsX (WritesAt (rmwOp incr)) ∧
    rmwForms .decDp .decDpX .decAbs .decAbsX (WritesAt (rmwOp decr)) := by
  refine ⟨?_, ?_, ?_, ?_, ?_, ?_⟩ <;> exact ⟨fun _ => writesAt_at fun _ => cycles_2m_dl,
    fun _ => writesAt_at fun _ => cycles_2m_dl, fun _ => writesAt_at fun _ => cycles_2m,
    fun _ => writesAt_at fun _ => cycles_2m⟩

/-- The frame of every memory form: P and the bytes of the operand. -/
theorem rmwOp_frame {f : Width → Word → State → Word × State} (hp : WritesPOnly f) (ea : Ea) (s : State) (n : Nat) :
    (rmwOp f ea s).tick n = { s.after n with p := ((rmwOp f ea s).tick n).p, mem := ((rmwOp f ea s).tick n).mem } ∧
      Stores s ((rmwOp f ea s).tick n) (ea.bytes s.wA (f s.wA (s.readOp ea s.wA) s).1) ∧
      ((rmwOp f ea s).tick n).p = (f s.wA (s.readOp ea s.wA) s).2.p := by
  have hf := hp s.wA (s.readOp ea s.wA) s
  have hmem : (f s.wA (s.readOp ea s.wA) s).2.mem = s.mem := by rw [hf]
  have hcfg : (f s.wA (s.readOp ea s.wA) s).2.cfg = s.cfg := by rw [hf]
  refine ⟨?_, ((stores_writeOp _ ea s.wA _).congr_left hmem hcfg).congr rfl rfl, State.writeOp_p _ _ _ _⟩
  rw [rmwOp, State.writeOp_eq_with_mem, hf]
  rfl

/-- What every memory form of a shift, a rotate, INC or DEC does. -/
theorem rmwOp_claim {f : Width → Word → State → Word × State} {spec : RmwSpec} (hp : WritesPOnly f) (hf : Meets f spec)
    {i : Instr} {ea : State → Ea} {cost : State → Nat} (h : WritesAt (rmwOp f) i ea cost) (s : State) :
    ∃ t : State, exec i s = .next t ∧ t = { s.after (cost s) with p := t.p, mem := t.mem } ∧
      Stores s t ((ea s).bytes s.wA (rmwResult spec s (s.readOp (ea s) s.wA))) ∧
      rmwFlags spec s t (s.readOp (ea s) s.wA) := by
  obtain ⟨hframe, hstores, hP⟩ := rmwOp_frame hp (ea s) s (cost s)
  obtain ⟨hr, hnz, hc, hkept⟩ := hf s.wA (s.readOp (ea s) s.wA) s (trunc_readOp _ _ _)
  rw [hr] at hstores hnz
  exact ⟨_, h s, hframe, hstores, hnz.of_p hP, (State.flag_congr hP _).trans hc, hkept.of_p hP⟩

/-- Settles O45: the six operations meet their arithmetic, at the address of each of the twenty-four forms. -/
theorem memoryModify : Obligations.MemoryModify := by
  obtain ⟨hasl, hlsr, hrol, hror, hinc, hdec⟩ := rmwForms_rmwOp
  exact ⟨rmwForms_mono (rmwOp_claim (fun _ _ _ => rfl) asl_meets) hasl,
    rmwForms_mono (rmwOp_claim (fun _ _ _ => rfl) lsr_meets) hlsr,
    rmwForms_mono (rmwOp_claim (fun _ _ _ => rfl) rol_meets) hrol,
    rmwForms_mono (rmwOp_claim (fun _ _ _ => rfl) ror_meets) hror,
    rmwForms_mono (rmwOp_claim (fun _ _ _ => rfl) incr_meets) hinc,
    rmwForms_mono (rmwOp_claim (fun _ _ _ => rfl) decr_meets) hdec⟩

theorem bitSetForms_rmwOp : bitSetForms .trbDp .trbAbs (WritesAt (rmwOp trb)) ∧
    bitSetForms .tsbDp .tsbAbs (WritesAt (rmwOp tsb)) := by
  constructor <;> exact ⟨fun _ => writesAt_at fun _ => cycles_2m_dl, fun _ => writesAt_at fun _ => cycles_2m⟩

/-- A store of width w looks at the low bits of the value. -/
theorem Ea.bytes_congr (ea : Ea) {w : Width} {u v : Word} (h : w.trunc u = w.trunc v) : ea.bytes w u = ea.bytes w v := by
  cases w
  · have hlo := congrArg lo h
    rw [lo_trunc, lo_trunc] at hlo
    rw [Ea.bytes, Ea.bytes, hlo]
  · exact congrArg _ h

/-- What TRB and TSB do: Z of the test, and the operand with the bits of A put in by `op`. -/
theorem bitSet_claim {f : Width → Word → State → Word × State} {op : Word → Word → Word}
    (hf : ∀ w m s, f w m s = (op m (w.trunc s.a), s.putFlag .z (decide (w.trunc s.a &&& m = 0))))
    (hop : ∀ w m a, Width.trunc w (op m (w.trunc a)) = w.trunc (op m a))
    {i : Instr} {ea : State → Ea} {cost : State → Nat} (h : WritesAt (rmwOp f) i ea cost) (s : State) :
    ∃ t : State, exec i s = .next t ∧ t = { s.after (cost s) with p := t.p, mem := t.mem } ∧
      Stores s t ((ea s).bytes s.wA (op (s.readOp (ea s) s.wA) s.a)) ∧
      (t.flag .z = true ↔ (s.a &&& s.readOp (ea s) s.wA).toNat % 2 ^ s.wA.bits = 0) ∧ FlagsKept s t [.z] := by
  obtain ⟨hframe, hstores, hP⟩ := rmwOp_frame (f := f) (fun w m s => by rw [hf]; rfl) (ea s) s (cost s)
  rw [hf] at hstores hP
  refine ⟨_, h s, hframe, Ea.bytes_congr _ (hop _ _ _) ▸ hstores, ?_, fun g hg => (State.flag_congr hP g).trans ?_⟩
  · rw [State.flag_congr hP, State.flag_putFlag, if_pos rfl, decide_eq_true_iff,
      trunc_and_eq_zero_iff (trunc_readOp _ _ _)]
  · rw [State.flag_putFlag, if_neg (List.mem_singleton.not.1 hg)]

/-- Clearing the bits of A at a width looks at the low bits of A. -/
theorem trunc_and_not_trunc (w : Width) (m a : Word) : w.trunc (m &&& ~~~w.trunc a) = w.trunc (m &&& ~~~a) :=
  BitVec.eq_of_getLsbD_eq fun k hk => by
    simp only [getLsbD_trunc, BitVec.getLsbD_and, BitVec.getLsbD_not]
    cases decide (k < w.bits) <;> simp

/-- Settles O47: TRB and TSB at the address of each of the four forms. -/
theorem bitResetAndSet : Obligations.BitResetAndSet := by
  obtain ⟨htrb, htsb⟩ := bitSetForms_rmwOp
  refine ⟨bitSetForms_mono (bitSet_claim (op := fun m a => m &&& ~~~a) (fun _ _ _ => rfl) trunc_and_not_trunc) htrb,
    bitSetForms_mono (bitSet_claim (op := fun m a => m ||| a) (fun _ _ _ => rfl) fun w m a => ?_) htsb⟩
  rw [BitVec.or_comm, trunc_or_trunc, BitVec.or_comm]

end Sys2Proof.Machine
end

section
/-! PROOFS. Control transfer (44_control.md): branches, jumps, calls and returns, and the returns that undo the calls. -/

namespace Sys2Proof.Machine

/-! ### Branches -/

/-- The target of a branch as signed arithmetic (R151). -/
theorem State.rel8_toNat (s : State) (d : Byte) :
    ((s.rel8 d).toNat : Int) = ((s.pc.toNat : Int) + d.toInt) % 65536 := by
  have hd := d.isLt
  have hpc := s.pc.isLt
  rw [State.rel8, BitVec.toNat_add, BitVec.toNat_signExtend, BitVec.toInt_eq_toNat_cond, BitVec.msb_eq_decide,
    BitVec.toNat_setWidth]
  simp only [decide_eq_true_eq]
  split <;> split <;> omega

theorem hi_ne_iff (a b : Word) : hi a ≠ hi b ↔ a.toNat / 256 ≠ b.toNat / 256 := by
  rw [ne_eq, ← BitVec.toNat_inj, hi_toNat, hi_toNat]

/-- What a branch does, taken or not (R250). -/
def Branches (i : Instr) (c : Bool) (d : Byte) (s : State) : Prop :=
  ∃ (t : State) (n : Nat), exec i s = .next t ∧
    t = { s.after n with pc := t.pc } ∧ (∀ b : Addr, t.busRead b = s.busRead b) ∧
    (c = false → t.pc = s.pc ∧ n = s.charge i 2) ∧
    (c = true → (t.pc.toNat : Int) = ((s.pc.toNat : Int) + d.toInt) % 65536 ∧
      ∃ tx : Bool, tx = decide (t.pc.toNat / 256 ≠ s.pc.toNat / 256) ∧
        n = s.charge i (3 + tx.toNat) { t := true, tx := tx })

section
variable {i : Instr} {c : Bool} {d : Byte} {s : State} (hexec : exec i s = branchForm i c d s)
include hexec

theorem branches_of_cycles (hnot : c = false → cycleValue (cycleExpr i) s {} = 2)
    (htaken : ∀ tx, cycleValue (cycleExpr i) s { t := true, tx := tx } = 3 + tx.toNat) : Branches i c d s := by
  refine ⟨_, _, hexec.trans (branchForm_eq i c d s), rfl, State.busRead_congr rfl rfl, ?_, ?_⟩
  · rintro rfl
    exact ⟨rfl, (State.charge_eq (hnot rfl)).symm⟩
  · rintro rfl
    exact ⟨s.rel8_toNat d, s.rel8Cross d, decide_eq_decide.2 (hi_ne_iff _ _), (State.charge_eq (htaken _)).symm⟩

/-- A conditional branch: 2 cycles, one more when taken, one more for another page. -/
theorem branches_conditional (hc : cycleExpr i = { base := 2, t := 1, tx := 1 }) : Branches i c d s :=
  branches_of_cycles hexec (fun _ => by simp [cycleValue_eq, hc]) fun _ => by simp [cycleValue_eq, hc]

end

/-- BRA is always taken, and its constant counts that (D7). -/
theorem branches_bra (d : Byte) (s : State) : Branches (.bra d) true d s :=
  branches_of_cycles rfl (fun h => nomatch h) fun tx => by simp [cycleValue_eq, cycleExpr]

/-- Settles O49: the eight conditional branches, and BRA. -/
theorem branchInstructions : Obligations.BranchInstructions := by
  simp only [Obligations.BranchInstructions, List.forall_mem_cons]
  exact ⟨fun _ _ => branches_conditional rfl rfl, fun _ _ => branches_conditional rfl rfl,
    fun _ _ => branches_conditional rfl rfl, fun _ _ => branches_conditional rfl rfl,
    fun _ _ => branches_conditional rfl rfl, fun _ _ => branches_conditional rfl rfl,
    fun _ _ => branches_conditional rfl rfl, fun _ _ => branches_conditional rfl rfl,
    fun d s => by simpa only [Branches] using branches_bra d s, by simp⟩

/-! ### Jumps -/

/-- Settles O50: each jump writes its target, and JML the bank too. -/
theorem jumpInstructions : Obligations.JumpInstructions := by
  intro s a l
  simp only [List.forall_mem_cons]
  exact ⟨⟨finish_charge _ cycles_base, finish_charge _ cycles_base, finish_charge _ cycles_base,
    finish_charge _ cycles_base, by simp⟩, finish_charge _ cycles_base, finish_charge _ cycles_base⟩

/-! ### Calls and returns -/

/-- A call inside the bank pushes the address of its last byte. -/
theorem callShort_claim {i : Instr} {target : Word} {n : Nat} {s : State} (hn : cycleValue (cycleExpr i) s {} = n)
    (hexec : exec i s = finish i s (s.callShort target)) :
    ∃ t : State, exec i s = .next t ∧
      t = { s.after (s.charge i n) with sp := s.spAfterPushes 2, pc := target, mem := t.mem } ∧
      Stores s t (s.pushes [hi (s.pc - 1), lo (s.pc - 1)]) := by
  obtain ⟨hstores, hsp, -, -⟩ := (Pushed.nil s).push16 (s.pc - 1)
  refine ⟨_, hexec.trans (finish_charge _ hn), ?_, hstores.congr rfl rfl⟩
  rw [← show (s.push16 (s.pc - 1)).sp = s.spAfterPushes 2 from hsp]
  rfl

/-- Settles O51: the pushes of a call as stores, its target and its bank. -/
theorem callInstructions : Obligations.CallInstructions := by
  intro s a l
  simp only [List.forall_mem_cons]
  refine ⟨⟨callShort_claim cycles_base rfl, callShort_claim cycles_base rfl, by simp⟩, ?_⟩
  obtain ⟨hstores, hsp, -, -⟩ := ((Pushed.nil s).push8 s.pb).push16 (s.pc - 1)
  refine ⟨_, finish_charge _ cycles_base, ?_, hstores.congr rfl rfl⟩
  rw [← show ((s.push8 s.pb).push16 (s.pc - 1)).sp = s.spAfterPushes 3 from hsp]
  rfl

theorem State.returnShort_eq (s : State) :
    s.returnShort = { s with sp := s.spAfterPulls 2, pc := word (s.pulled 1) (s.pulled 2) + 1 } := by
  rw [State.returnShort, State.pull16_eq]

theorem State.returnLong_eq (s : State) : s.returnLong =
    { s with sp := s.spAfterPulls 3, pc := word (s.pulled 1) (s.pulled 2) + 1, pb := s.pulled 3 } := by
  rw [State.returnLong, State.returnShort_eq]
  simp only [State.pull8_at (s := s)
    (u := { s with sp := s.spAfterPulls 2, pc := word (s.pulled 1) (s.pulled 2) + 1 }) 2 rfl rfl rfl rfl]

/-- Settles O52: the pulls of the two returns. -/
theorem returnInstructions : Obligations.ReturnInstructions := by
  intro s
  refine ⟨(finish_charge _ cycles_base).trans ?_, (finish_charge _ cycles_base).trans ?_⟩
  · rw [State.returnShort_eq]; rfl
  · rw [State.returnLong_eq]; rfl

/-- Settles O13: the return pulls the bytes the call pushed, in the opposite order. -/
theorem returnUndoesCall : Obligations.ReturnUndoesCall := by
  intro s
  refine ⟨fun a hroom => ?_, fun a hroom => ?_⟩
  · obtain ⟨hjsr, -⟩ := callInstructions s a 0
    obtain ⟨t, hexec, ht, hstores⟩ := hjsr _ List.mem_cons_self
    have hp : Pushed s t [hi (s.pc - 1), lo (s.pc - 1)] := ⟨hstores, by rw [ht]; rfl, by rw [ht]; rfl, by rw [ht]; rfl⟩
    have hsp : t.spAfterPulls 2 = s.sp := hp.sp_back hroom
    have hlo : t.pulled 1 = lo (s.pc - 1) := hp.pulled hroom 1 le_rfl (by simp)
    have hhi : t.pulled 2 = hi (s.pc - 1) := hp.pulled hroom 2 (by decide) le_rfl
    refine ⟨t, _, hexec, (returnInstructions t).1, ?_, hstores.congr rfl rfl⟩
    rw [hsp, hlo, hhi, word_lo_hi, BitVec.sub_add_cancel, ht]
    rfl
  · obtain ⟨-, t, hexec, ht, hstores⟩ := callInstructions s 0 a
    have hp : Pushed s t [s.pb, hi (s.pc - 1), lo (s.pc - 1)] :=
      ⟨hstores, by rw [ht]; rfl, by rw [ht]; rfl, by rw [ht]; rfl⟩
    have hsp : t.spAfterPulls 3 = s.sp := hp.sp_back hroom
    have hlo : t.pulled 1 = lo (s.pc - 1) := hp.pulled hroom 1 le_rfl (by simp)
    have hhi : t.pulled 2 = hi (s.pc - 1) := hp.pulled hroom 2 (by decide) (by simp)
    have hpb : t.pulled 3 = s.pb := hp.pulled hroom 3 (by decide) le_rfl
    refine ⟨t, _, hexec, (returnInstructions t).2, ?_, hstores.congr rfl rfl⟩
    rw [hsp, hlo, hhi, hpb, word_lo_hi, BitVec.sub_add_cancel, ht]
    rfl

end Sys2Proof.Machine
end

section
/-! PROOFS. The stack instructions (45_stack.md), the flat writes of P (46_flags_transfers.md section 1), RTI, and the pulls
that undo a push or an entry. -/

namespace Sys2Proof.Machine

/-! ### Pushes -/

theorem State.pushW_eq_with (s : State) (w : Width) (v : Word) :
    s.pushW w v = { s with sp := (s.pushW w v).sp, mem := (s.pushW w v).mem } := by
  cases w <;> rfl

/-- What an instruction that only pushes does. -/
theorem push_claim {i : Instr} {pen : Penalty} {n : Nat} {s u : State} {bs : List Byte} (hp : Pushed s u bs)
    (hn : cycleValue (cycleExpr i) s pen = n) (hexec : exec i s = finish i s u pen)
    (hu : u = { s with sp := u.sp, mem := u.mem }) :
    ∃ t : State, exec i s = .next t ∧
      t = { s.after (s.charge i n pen) with sp := s.spAfterPushes bs.length, mem := t.mem } ∧
      Stores s t (s.pushes bs) := by
  obtain ⟨hstores, hsp, -, -⟩ := hp
  refine ⟨_, hexec.trans (finish_charge _ hn), ?_, hstores.congr rfl rfl⟩
  rw [← hsp, hu]
  rfl

theorem cycles_dl {i : Instr} {s : State} {r : Resolved} {b : Nat} (hc : cycleExpr i = { base := b, dl := 1 })
    (hd : r.dl = s.dlPenalty) : cycleValue (cycleExpr i) s r.penalty = b + s.dl := by
  simp [cycleValue_eq, hc, Resolved.penalty, hd, State.dl_eq]

/-- Settles O53: the pushed bytes of each of the ten instructions. -/
theorem pushInstructions : Obligations.PushInstructions := by
  intro v o
  simp only [List.forall_mem_cons]
  exact ⟨fun s => push_claim ((Pushed.nil s).pushW _ _) cycles_m rfl (State.pushW_eq_with _ _ _),
    fun s => push_claim ((Pushed.nil s).pushW _ _) cycles_x rfl (State.pushW_eq_with _ _ _),
    fun s => push_claim ((Pushed.nil s).pushW _ _) cycles_x rfl (State.pushW_eq_with _ _ _),
    fun s => push_claim ((Pushed.nil s).push8 _) cycles_base rfl rfl,
    fun s => push_claim ((Pushed.nil s).push8 _) cycles_base rfl rfl,
    fun s => push_claim ((Pushed.nil s).push8 _) cycles_base rfl rfl,
    fun s => push_claim ((Pushed.nil s).push16 _) cycles_base rfl rfl,
    fun s => push_claim ((Pushed.nil s).push16 _) cycles_base rfl rfl,
    fun s => push_claim ((Pushed.nil s).push16 _) (cycles_dl rfl rfl) rfl rfl,
    fun s => push_claim ((Pushed.nil s).push16 _) cycles_base rfl rfl, by simp⟩

/-! ### Pulls -/

theorem State.pullA_eq (s : State) : s.pullA =
    { s with a := s.pulledValue s.wA, sp := s.spAfterPulls s.wA.bytes }.setNZ s.wA (s.pulledValue s.wA) := by
  rw [State.pullA, State.pullW_eq]

theorem State.pullX_eq (s : State) : s.pullX =
    { s with x := s.pulledValue s.wX, sp := s.spAfterPulls s.wX.bytes }.setNZ s.wX (s.pulledValue s.wX) := by
  rw [State.pullX, State.pullW_eq]

theorem State.pullY_eq (s : State) : s.pullY =
    { s with y := s.pulledValue s.wX, sp := s.spAfterPulls s.wX.bytes }.setNZ s.wX (s.pulledValue s.wX) := by
  rw [State.pullY, State.pullW_eq]

theorem State.pullDB_eq (s : State) : s.pullDB =
    { s with db := s.pulled 1, sp := s.spAfterPulls 1 }.setPulledNZ .w8 (s.pulledValue .w8) := by
  rw [← State.pullW_value]
  rfl

theorem State.pullD_eq (s : State) : s.pullD =
    { s with d := s.pulledValue .w16, sp := s.spAfterPulls 2 }.setPulledNZ .w16 (s.pulledValue .w16) := by
  rw [State.pullD, State.pull16_eq]
  rfl

theorem State.setPulledNZ_eq_with_p (s : State) (w : Width) (v : Word) :
    s.setPulledNZ w v = { s with p := (s.setPulledNZ w v).p } := by
  unfold State.setPulledNZ
  split <;> rfl

/-- N and Z of a pull of DB or D, as the parameter says (D15). -/
theorem setPulledNZ_flags {s t u : State} {w : Width} {v : Word} (ht : t.p = (u.setPulledNZ w v).p) (hu : u.p = s.p)
    (hcfg : u.cfg = s.cfg) :
    if s.cfg.pullBDSetsNZ then NZof t w v ∧ FlagsKept s t [.n, .z] else t.p = s.p := by
  unfold State.setPulledNZ at ht
  rw [hcfg] at ht
  by_cases hc : s.cfg.pullBDSetsNZ = true
  · rw [if_pos hc] at ht ⊢
    exact ⟨(NZof_setNZ u w v).of_p ht,
      fun f hf => (State.flag_congr ht f).trans ((flagsKept_setNZ u w v f hf).trans (State.flag_congr hu f))⟩
  · rw [if_neg hc] at ht ⊢
    exact ht.trans hu

/-- Settles O54: the value, SP and the flags of each of the five pulls. -/
theorem pullInstructions : Obligations.PullInstructions := by
  intro s
  refine ⟨⟨_, finish_charge _ cycles_m, ?_⟩, ⟨_, finish_charge _ cycles_x, ?_⟩, ⟨_, finish_charge _ cycles_x, ?_⟩,
    ⟨_, finish_charge _ cycles_base, ?_⟩, ⟨_, finish_charge _ cycles_base, ?_⟩⟩
  · rw [State.pullA_eq]
    exact ⟨State.busRead_congr rfl rfl, rfl, NZof_tick_setNZ _ _ _ _, flagsKept_tick_setNZ rfl _ _ _⟩
  · rw [State.pullX_eq]
    exact ⟨State.busRead_congr rfl rfl, rfl, NZof_tick_setNZ _ _ _ _, flagsKept_tick_setNZ rfl _ _ _⟩
  · rw [State.pullY_eq]
    exact ⟨State.busRead_congr rfl rfl, rfl, NZof_tick_setNZ _ _ _ _, flagsKept_tick_setNZ rfl _ _ _⟩
  · rw [State.pullDB_eq, State.setPulledNZ_eq_with_p]
    exact ⟨State.busRead_congr rfl rfl, rfl, setPulledNZ_flags rfl rfl rfl⟩
  · rw [State.pullD_eq, State.setPulledNZ_eq_with_p]
    exact ⟨State.busRead_congr rfl rfl, rfl, setPulledNZ_flags rfl rfl rfl⟩

/-! ### The flat writes of P -/

/-- What a write of P through SetP does, P and SP having been read as given. -/
theorem setP_claim {i : Instr} {n : Nat} {s u : State} {v : Byte} {sp : Word} (hn : cycleValue (cycleExpr i) s {} = n)
    (hexec : exec i s = finish i s (u.setP v)) (hu : u = { s with sp := sp }) :
    ∃ t : State, exec i s = .next t ∧ (∀ b : Addr, t.busRead b = s.busRead b) ∧
      t = { s.after (s.charge i n) with
            p := if s.e then v ||| 0x30 else v
            sp := if s.e then word (lo sp) 0x01 else sp
            x := if t.flag .x then word (lo s.x) 0x00 else s.x
            y := if t.flag .x then word (lo s.y) 0x00 else s.y } := by
  subst hu
  refine ⟨_, hexec.trans (finish_charge _ hn), State.busRead_congr ?_ ?_, ?_⟩
  · simp
  · simp
  · exact congrArg (State.tick · _) (State.enforceModes_eq _)

/-- Settles O55: the byte each of the three instructions writes to P, through SetP. -/
theorem flatStatusWrites : Obligations.FlatStatusWrites := by
  intro s m
  simp only [List.forall_mem_cons]
  exact ⟨setP_claim cycles_base rfl rfl, setP_claim cycles_base rfl rfl, setP_claim cycles_base rfl rfl, by simp⟩

/-! ### A pull after its push (R71) -/

theorem State.StackRoom.mono {s : State} {m n : Nat} (h : s.StackRoom n) (hmn : m ≤ n) : s.StackRoom m := by
  obtain ⟨hsp, hroom⟩ := h
  refine ⟨hsp, fun j hj => ?_⟩
  obtain ⟨hw, hne⟩ := hroom j (hj.trans_le hmn)
  exact ⟨hw, fun k hk => hne k (hk.trans_le hmn)⟩

section
variable {s t : State} {w : Width} {v : Word}

/-- What a push left, after its frame: the stores and where SP is. -/
theorem Pushed.of_frame {n : Nat} {bs : List Byte}
    (ht : t = { s.after n with sp := s.spAfterPushes bs.length, mem := t.mem }) (hstores : Stores s t (s.pushes bs)) :
    Pushed s t bs :=
  ⟨hstores, by rw [ht], by rw [ht]; rfl, by rw [ht]; rfl⟩

theorem pushOrder_length (w : Width) (v : Word) : (pushOrder w v).length = w.bytes := by cases w <;> rfl

/-- A value pushed at a width is pulled at that width, and SP comes back. -/
theorem Pushed.pulledValue (h : Pushed s t (pushOrder w v)) (hr : s.StackRoom w.bytes) :
    t.pulledValue w = w.trunc v ∧ t.spAfterPulls w.bytes = s.sp := by
  rw [← pushOrder_length w v] at hr ⊢
  refine ⟨?_, h.sp_back hr⟩
  cases w
  · have hlo : t.pulled 1 = lo v := h.pulled hr 1 le_rfl le_rfl
    rw [State.pulledValue, hlo, trunc_w8]
  · have hlo : t.pulled 1 = lo v := h.pulled hr 1 le_rfl (by simp [pushOrder])
    have hhi : t.pulled 2 = hi v := h.pulled hr 2 (by decide) le_rfl
    rw [State.pulledValue, hlo, hhi, word_lo_hi, trunc_w16]

end

section
variable {s : State} (hs : s.ModeInv)
include hs

/-- In emulation mode P.M and P.X are set already. -/
theorem State.ModeInv.p_or (he : s.e = true) : s.p ||| 0x30 = s.p := by
  obtain ⟨hm, hx, -⟩ := hs.1 he
  rw [← put_m_x]
  refine flags_ext fun f => ?_
  rw [getLsbD_put, getLsbD_put]
  split
  · next hf => rw [hf]; exact hx.symm
  · split
    · next hf => rw [hf]; exact hm.symm
    · rfl

/-- With P.X = 1 the index registers have no high byte already. -/
theorem State.ModeInv.index_low {b : Bool} (hb : b = s.flag .x) :
    (if b then word (lo s.x) 0x00 else s.x) = s.x ∧ (if b then word (lo s.y) 0x00 else s.y) = s.y := by
  subst hb
  by_cases hx : s.flag .x = true
  · obtain ⟨hxh, hyh⟩ := hs.2 hx
    rw [if_pos hx, if_pos hx]
    exact ⟨word_ext (lo_word _ _) (by rw [hi_word, hxh]), word_ext (lo_word _ _) (by rw [hi_word, hyh])⟩
  · rw [if_neg hx, if_neg hx]
    exact ⟨rfl, rfl⟩

/-- The index registers fit their width. -/
theorem State.ModeInv.trunc_index : s.wX.trunc s.x = s.x ∧ s.wX.trunc s.y = s.y := by
  by_cases hx : s.flag .x = true
  · obtain ⟨hxh, hyh⟩ := hs.2 hx
    rw [State.wX_eq_w8 hx]
    exact ⟨word_ext (lo_trunc _ _) (by rw [hi_trunc_w8, hxh]), word_ext (lo_trunc _ _) (by rw [hi_trunc_w8, hyh])⟩
  · rw [State.wX, if_neg hx]
    exact ⟨rfl, rfl⟩

end

/-- PLP right after PHP writes back the P that stands. -/
theorem plp_php {s t : State} {n : Nat} (hs : s.ModeInv) (hroom : s.StackRoom 1)
    (ht : t = { s.after n with sp := s.spAfterPushes 1, mem := t.mem }) (hstores : Stores s t (s.pushes [s.p])) :
    t.pull8.2.setP t.pull8.1 = { s.after n with mem := t.mem } := by
  have hp : Pushed s t [s.p] := Pushed.of_frame ht hstores
  have hv : t.pulled 1 = s.p := hp.pulled hroom 1 le_rfl le_rfl
  have hsp : t.spAfterPulls 1 = s.sp := hp.sp_back hroom
  have hback : { t with sp := s.sp, p := s.p } = { s.after n with mem := t.mem } := by
    rw [ht]
    rfl
  rw [State.pull8_eq, State.setP, hv, hsp, hback]
  exact State.enforceModes_eq_self (hs.congr rfl rfl rfl rfl rfl rfl)

/-- Settles O14: each pull reads back what its push stored. -/
theorem pullUndoesPush : Obligations.PullUndoesPush := by
  intro s hs hroom
  have hpush := pushInstructions 0 0
  simp only [List.forall_mem_cons] at hpush
  obtain ⟨hpha, hphx, hphy, hphp, hphb, -, hphd, -⟩ := hpush
  have hbytes : ∀ w : Width, s.StackRoom w.bytes := fun w => hroom.mono (by cases w <;> decide)
  have hwidth : ∀ {t : State} {n : Nat} {sp : Word} {m : Memory}, t = { s.after n with sp := sp, mem := m } →
      t.wA = s.wA ∧ t.wX = s.wX := fun ht => by rw [ht]; exact ⟨rfl, rfl⟩
  refine ⟨?_, ?_, ?_, ?_, ?_, ?_⟩
  · obtain ⟨t, hexec, ht, hstores⟩ := hpha s
    obtain ⟨⟨u, hpull, -, hu, -⟩, -⟩ := pullInstructions t
    obtain ⟨hv, hsp⟩ := (Pushed.of_frame ht hstores).pulledValue (hbytes _)
    refine ⟨t, u, hexec, hpull, ?_, ?_⟩
    · rw [hu, (hwidth ht).1]; exact hsp
    · rw [hu, (hwidth ht).1, hv]
      show s.wA.trunc s.a = _
      unfold State.wA
      split
      · exact trunc_w8 _
      · rfl
  · obtain ⟨t, hexec, ht, hstores⟩ := hphx s
    obtain ⟨-, ⟨u, hpull, -, hu, -⟩, -⟩ := pullInstructions t
    obtain ⟨hv, hsp⟩ := (Pushed.of_frame ht hstores).pulledValue (hbytes _)
    refine ⟨t, u, hexec, hpull, ?_, ?_⟩
    · rw [hu, (hwidth ht).2]; exact hsp
    · rw [hu, (hwidth ht).2, hv]; exact hs.trunc_index.1
  · obtain ⟨t, hexec, ht, hstores⟩ := hphy s
    obtain ⟨-, -, ⟨u, hpull, -, hu, -⟩, -⟩ := pullInstructions t
    obtain ⟨hv, hsp⟩ := (Pushed.of_frame ht hstores).pulledValue (hbytes _)
    refine ⟨t, u, hexec, hpull, ?_, ?_⟩
    · rw [hu, (hwidth ht).2]; exact hsp
    · rw [hu, (hwidth ht).2, hv]; exact hs.trunc_index.2
  · obtain ⟨t, hexec, ht, hstores⟩ := hphp s
    refine ⟨t, _, hexec, rfl, ?_, ?_⟩
    · rw [plp_php hs (hroom.mono (by decide)) ht hstores]
      rfl
    · rw [plp_php hs (hroom.mono (by decide)) ht hstores]
      exact hstores.congr rfl (by rw [ht]; rfl)
  · obtain ⟨t, hexec, ht, hstores⟩ := hphb s
    obtain ⟨-, -, -, ⟨u, hpull, -, hu, -⟩, -⟩ := pullInstructions t
    have hp : Pushed s t [s.db] := Pushed.of_frame ht hstores
    have hroom1 : s.StackRoom 1 := hroom.mono (by decide)
    refine ⟨t, u, hexec, hpull, ?_, ?_⟩
    · rw [hu]; exact hp.sp_back hroom1
    · rw [hu]; exact hp.pulled hroom1 1 le_rfl le_rfl
  · obtain ⟨t, hexec, ht, hstores⟩ := hphd s
    obtain ⟨-, -, -, -, ⟨u, hpull, -, hu, -⟩⟩ := pullInstructions t
    obtain ⟨hv, hsp⟩ := Pushed.pulledValue (w := .w16) (Pushed.of_frame ht hstores) hroom
    refine ⟨t, u, hexec, hpull, ?_, ?_⟩
    · rw [hu]; exact hsp
    · rw [hu]; exact hv

/-! ### RTI -/

theorem cycles_e {i : Instr} {s : State} {b : Nat} {pen : Penalty} (hc : cycleExpr i = { base := b, e0 := 1 }) :
    cycleValue (cycleExpr i) s pen = b + s.e0 := by
  simp [cycleValue_eq, hc]

/-- Settles O11: the pulls of `returnFromInterrupt`, field by field. -/
theorem rtiReturns : Obligations.RtiReturns := by
  intro s
  obtain ⟨x8, hx8, hr⟩ := s.returnFromInterrupt_eq
  have hflag : ∀ n, (s.returnFromInterrupt.tick n).flag .x = x8 := fun _ => hx8.symm
  refine ⟨_, finish_charge _ (cycles_e rfl), ?_⟩
  rw [hflag, hr]
  exact ⟨rfl, State.busRead_congr rfl rfl, rfl, rfl, rfl, rfl, rfl, rfl⟩

/-- The copy of P in a frame differs from P at most in bit 4, which RTI sets in emulation mode. -/
theorem pushedP_restored {s : State} (hs : s.ModeInv) (ev : TrapEvent) :
    (if s.e then pushedP ev s.e s.p ||| 0x30 else pushedP ev s.e s.p) = s.p := by
  have hbit : ∀ p : Byte, p &&& 0xEF ||| 0x30 = p ||| 0x30 := by decide
  cases he : s.e
  · rfl
  · have hp := hs.p_or he
    cases ev
    · exact hp
    · exact hp
    · exact (hbit _).trans hp
    · exact (hbit _).trans hp

section
variable {s t : State} {copy : Byte} (hp : Pushed s t (s.frame copy)) (hroom : s.StackRoom (if s.e then 3 else 4))
include hp hroom

/-- The pulls of RTI read the frame from its last byte on. -/
theorem Pushed.frame_pulled : t.pulled 1 = copy ∧ t.pulled 2 = lo s.pc ∧ t.pulled 3 = hi s.pc ∧
    (if s.e then t.pb else t.pulled 4) = (if s.e then t.pb else s.pb) ∧
    t.spAfterPulls (if s.e then 3 else 4) = s.sp := by
  unfold State.frame at hp
  cases he : s.e
  · rw [he] at hp hroom
    exact ⟨hp.pulled hroom 1 le_rfl (by simp), hp.pulled hroom 2 (by decide) (by simp),
      hp.pulled hroom 3 (by decide) (by simp), hp.pulled hroom 4 (by decide) (by simp), hp.sp_back hroom⟩
  · rw [he] at hp hroom
    exact ⟨hp.pulled hroom 1 le_rfl (by simp), hp.pulled hroom 2 (by decide) (by simp),
      hp.pulled hroom 3 (by decide) (by simp), rfl, hp.sp_back hroom⟩

end

/-- All of RTI's pulls right after an entry. -/
theorem State.returnFromInterrupt_trapEntry {s : State} (hs : s.ModeInv) (ev : TrapEvent)
    (hroom : s.StackRoom (if s.e then 3 else 4)) : (s.trapEntry ev).returnFromInterrupt =
      { s with pb := if s.e then 0x00 else s.pb, waiting := false, cycles := (s.trapEntry ev).cycles
               mem := (s.trapEntry ev).mem } := by
  obtain ⟨ht, hstores, hsp, -⟩ := entered_trapEntry s ev
  have he : (s.trapEntry ev).e = s.e := by rw [ht]
  obtain ⟨hcopy, hlo, hhi, hpb, hsp⟩ :=
    Pushed.frame_pulled (t := s.trapEntry ev) ⟨hstores, hsp, he, hstores.1⟩ hroom
  obtain ⟨x8, hx8, hr⟩ := (s.trapEntry ev).returnFromInterrupt_eq
  have hp := pushedP_restored hs ev
  rw [he, hcopy, hp, hlo, hhi, word_lo_hi, hpb, hsp] at hr
  obtain ⟨hxr, hyr⟩ := hs.index_low (b := x8) (by rw [hx8, hr]; rfl)
  have hX : (s.trapEntry ev).x = s.x := by rw [ht]
  have hY : (s.trapEntry ev).y = s.y := by rw [ht]
  rw [hr, hX, hY, hxr, hyr, ht]

/-- Settles O12: RTI pulls the frame that the entry pushed. -/
theorem rtiUndoesEntry : Obligations.RtiUndoesEntry := by
  intro s ev hs hroom
  refine ⟨_, rfl, ?_, ?_⟩
  · rw [State.returnFromInterrupt_trapEntry hs ev hroom]
    rfl
  · rw [State.returnFromInterrupt_trapEntry hs ev hroom]
    obtain ⟨-, hstores, -⟩ := entered_trapEntry s ev
    exact hstores.congr rfl hstores.1.symm

end Sys2Proof.Machine
end

section
/-! PROOFS. The single-flag instructions, transfers and exchanges (46_flags_transfers.md), the block moves, no-operations
and halts (47_block_misc.md). -/

namespace Sys2Proof.Machine

/-! ### One flag -/

/-- What an instruction that writes one flag does. -/
theorem putFlag_claim {i : Instr} {f : Flag} {b : Bool} (hn : ∀ s, cycleValue (cycleExpr i) s {} = 2)
    (hexec : ∀ s, exec i s = finish i s (s.putFlag f b)) (s : State) :
    ∃ t : State, exec i s = .next t ∧ t = { s.after (s.charge i 2) with p := t.p } ∧
      (∀ b : Addr, t.busRead b = s.busRead b) ∧ t.flag f = b ∧ FlagsKept s t [f] := by
  refine ⟨_, (hexec s).trans (finish_charge _ (hn s)), rfl, State.busRead_congr rfl rfl, ?_, fun g hg => ?_⟩
  · rw [State.flag_tick, State.flag_putFlag, if_pos rfl]
  · rw [State.flag_tick, State.flag_putFlag, if_neg (List.mem_singleton.not.1 hg)]

/-- Settles O56: the flag and the value of each of the seven instructions. -/
theorem singleFlagInstructions : Obligations.SingleFlagInstructions := by
  simp only [Obligations.SingleFlagInstructions, List.forall_mem_cons]
  exact ⟨putFlag_claim (fun _ => cycles_base) fun _ => rfl, putFlag_claim (fun _ => cycles_base) fun _ => rfl,
    putFlag_claim (fun _ => cycles_base) fun _ => rfl, putFlag_claim (fun _ => cycles_base) fun _ => rfl,
    putFlag_claim (fun _ => cycles_base) fun _ => rfl, putFlag_claim (fun _ => cycles_base) fun _ => rfl,
    putFlag_claim (fun _ => cycles_base) fun _ => rfl, by simp⟩

/-! ### Transfers -/

section
variable {i : Instr} {s : State} {v : Word} (hn : cycleValue (cycleExpr i) s {} = 2)
include hn

theorem transferX_claim (hexec : exec i s = finish i s (s.setX s.wX v)) :
    ∃ t : State, exec i s = .next t ∧ t = { s.after (s.charge i 2) with x := t.x, p := t.p } ∧
      t.x.toNat = v.toNat % 2 ^ s.wX.bits ∧ NZof t s.wX v ∧ FlagsKept s t [.n, .z] :=
  ⟨_, hexec.trans (finish_charge _ hn), rfl, trunc_toNat _ _, (NZof_trunc_iff _ _ _).1 (NZof_tick_setNZ _ _ _ _),
    flagsKept_tick_setNZ rfl _ _ _⟩

theorem transferY_claim (hexec : exec i s = finish i s (s.setY s.wX v)) :
    ∃ t : State, exec i s = .next t ∧ t = { s.after (s.charge i 2) with y := t.y, p := t.p } ∧
      t.y.toNat = v.toNat % 2 ^ s.wX.bits ∧ NZof t s.wX v ∧ FlagsKept s t [.n, .z] :=
  ⟨_, hexec.trans (finish_charge _ hn), rfl, trunc_toNat _ _, (NZof_trunc_iff _ _ _).1 (NZof_tick_setNZ _ _ _ _),
    flagsKept_tick_setNZ rfl _ _ _⟩

theorem transferA_claim (hexec : exec i s = finish i s (s.transferA v)) :
    ∃ t : State, exec i s = .next t ∧
      t = { s.after (s.charge i 2) with a := if s.flag .m then word (lo v) (hi s.a) else v, p := t.p } ∧
      NZof t s.wA v ∧ FlagsKept s t [.n, .z] := by
  have ha : (s.setAcc s.wA (s.wA.trunc v)).a = if s.flag .m then word (lo v) (hi s.a) else v := by
    rw [State.setAcc_wA_a, lo_trunc]
    unfold State.wA
    split <;> rfl
  refine ⟨_, hexec.trans (finish_charge _ hn), ?_, (NZof_trunc_iff _ _ _).1 (NZof_tick_setNZ _ _ _ _),
    flagsKept_tick_setNZ rfl _ _ _⟩
  rw [← ha]
  rfl

theorem setAcc16_claim (hexec : exec i s = finish i s (s.setAcc16 v)) :
    ∃ t : State, exec i s = .next t ∧ t = { s.after (s.charge i 2) with a := v, p := t.p } ∧
      NZof t .w16 v ∧ FlagsKept s t [.n, .z] :=
  ⟨_, hexec.trans (finish_charge _ hn), rfl, NZof_tick_setNZ _ _ _ _, flagsKept_tick_setNZ rfl _ _ _⟩

end

/-- Settles O57: each transfer writes its register at the width of the move. -/
theorem transferInstructions : Obligations.TransferInstructions := by
  intro s
  simp only [List.forall_mem_cons]
  exact ⟨⟨transferX_claim cycles_base rfl, transferX_claim cycles_base rfl, transferX_claim cycles_base rfl, by simp⟩,
    ⟨transferY_claim cycles_base rfl, transferY_claim cycles_base rfl, by simp⟩,
    ⟨transferA_claim cycles_base rfl, transferA_claim cycles_base rfl, by simp⟩,
    ⟨setAcc16_claim cycles_base rfl, setAcc16_claim cycles_base rfl, by simp⟩,
    ⟨_, finish_charge _ cycles_base, rfl, NZof_tick_setNZ _ _ _ _, flagsKept_tick_setNZ rfl _ _ _⟩,
    finish_charge _ cycles_base, finish_charge _ cycles_base, by simp⟩

/-! ### Exchanges -/

/-- The flags after XCE: C is E, and entering emulation mode sets M and X (R344, R39). -/
theorem State.flag_exchangeCE (s : State) (f : Flag) : s.exchangeCE.flag f =
    if f = .c then s.e else if f = .m ∨ f = .x then s.flag f || s.flag .c else s.flag f := by
  have hput : ∀ g : Flag, (s.putFlag .c s.e).p.getLsbD g.bit = if g = .c then s.e else s.flag g :=
    fun g => State.flag_putFlag s .c g s.e
  have hp : s.exchangeCE.p = if s.flag .c then Flag.x.put true (Flag.m.put true (s.putFlag .c s.e).p)
      else (s.putFlag .c s.e).p := State.enforceModes_p _
  rw [State.flag, hp]
  cases hc : s.flag .c
  · rw [if_neg Bool.false_ne_true, hput]
    simp
  · rw [if_pos rfl, getLsbD_put, getLsbD_put, hput]
    cases f <;> simp

/-- The frame of XCE. -/
theorem State.exchangeCE_eq (s : State) : s.exchangeCE = { s with
    e := s.flag .c
    p := s.exchangeCE.p
    sp := if s.flag .c then word (lo s.sp) 0x01 else s.sp
    x := if s.exchangeCE.flag .x then word (lo s.x) 0x00 else s.x
    y := if s.exchangeCE.flag .x then word (lo s.y) 0x00 else s.y } := by
  have h := State.enforceModes_eq { s.putFlag .c s.e with e := s.flag .c }
  have hp : s.exchangeCE.p = _ := congrArg State.p h
  rw [hp]
  exact h

/-- The bytes of A after XBA, the new low byte as an 8-bit value. -/
theorem trunc_w8_word (l h : Byte) : Width.w8.trunc (word l h) = l.setWidth 16 :=
  word_ext (by simp) (by simp)

/-- Settles O58: XBA swaps the bytes twice to the identity, XCE exchanges C and E and enforces the mode invariants. -/
theorem exchangeInstructions : Obligations.ExchangeInstructions := by
  intro s
  refine ⟨⟨_, _, finish_charge _ cycles_base, rfl, ?_, flagsKept_tick_setNZ rfl _ _ _, rfl, ?_⟩, _,
    finish_charge _ cycles_base, State.busRead_congr ?_ ?_, ?_, ?_, ?_, ?_, fun f hf => ?_⟩
  · refine (NZof_trunc_iff _ _ _).1 ?_
    rw [show (s.swapAcc.tick _).a = word (hi s.a) (lo s.a) from rfl, trunc_w8_word]
    exact NZof_tick_setNZ _ _ _ _
  · show word (hi (word (hi s.a) (lo s.a))) (lo (word (hi s.a) (lo s.a))) = s.a
    rw [hi_word, lo_word, word_lo_hi]
  · simp [State.exchangeCE]
  · simp [State.exchangeCE]
  · exact congrArg (State.tick · _) s.exchangeCE_eq
  · rw [State.flag_tick, State.flag_exchangeCE]; rfl
  · rw [State.flag_tick, State.flag_exchangeCE]; rfl
  · rw [State.flag_tick, State.flag_exchangeCE]; rfl
  · simp only [List.mem_cons, List.not_mem_nil, or_false, not_or] at hf
    obtain ⟨hc, hm, hx⟩ := hf
    rw [State.flag_tick, State.flag_exchangeCE, if_neg hc, if_neg (not_or.2 ⟨hm, hx⟩)]

/-! ### Block moves, no-operations and halts -/

/-- One iteration of a block move. -/
theorem blockMove_claim {i : Instr} {step : Word} {dst src : Byte} {s : State} (hn : cycleValue (cycleExpr i) s {} = 7)
    (hexec : exec i s = finish i s (s.blockMove step dst src)) :
    ∃ t : State, exec i s = .next t ∧
      t = { s.after (s.charge i 7) with x := t.x, y := t.y, a := t.a, db := dst, pc := t.pc, mem := t.mem } ∧
      Stores s t [(addr24 dst s.y, s.busRead (addr24 src s.x))] ∧
      t.x.toNat = (s.x.toNat + step.toNat) % 2 ^ s.wX.bits ∧ t.y.toNat = (s.y.toNat + step.toNat) % 2 ^ s.wX.bits ∧
      t.a.toNat = (s.a.toNat + 65535) % 65536 ∧ t.pc = (if s.a = 0x0000 then s.pc else s.pc - 3) := by
  have hlast : s.a - 1 = 0xFFFF ↔ s.a = 0x0000 := by bv_omega
  have ha : (s.a - 1).toNat = (s.a.toNat + 65535) % 65536 := by
    rw [sub_one_eq_add, BitVec.toNat_add]
    rfl
  refine ⟨_, hexec.trans (finish_charge _ hn), rfl,
    (Stores.busWrite (Stores.none (s := s) (t := s) rfl rfl) _ _).congr rfl rfl, trunc_step_toNat _ _ _,
    trunc_step_toNat _ _ _, ha, ?_⟩
  rw [← if_congr hlast rfl rfl]
  rfl

/-- Settles O59: one iteration of each block move, up and down. -/
theorem blockMoveInstructions : Obligations.BlockMoveInstructions := by
  intro dst src s
  simp only [List.forall_mem_cons]
  exact ⟨blockMove_claim (step := 1) cycles_base rfl, blockMove_claim (step := 0xFFFF) cycles_base rfl, by simp⟩

/-- Settles O60: the whole effect of each of the four. -/
theorem nopAndHaltInstructions : Obligations.NopAndHaltInstructions := fun _ _ =>
  ⟨finish_charge _ cycles_base, finish_charge _ cycles_base, finish_charge _ cycles_base, finish_charge _ cycles_base⟩

end Sys2Proof.Machine
end
